-- ==== Sys2Proof/Word.lean ====
section
/-! DEFINITION. The widths of the block's words (00_scope.md R5, R12; 30_encoding.md R80). -/

namespace Sys2Proof

/-- A 64-bit word: an element of `W` or `S`, a scalar register, an operand, a response (R12, R86). -/
abbrev Word := BitVec 64

/-- An element of a select cache: a 32-bit superblock number (10_state.md R23). -/
abbrev CacheEntry := BitVec 32

/-- The one command format `Q`: 67 bits, numbered 66 down to 0 (30_encoding.md R80). -/
abbrev CommandWord := BitVec 67

end Sys2Proof
end

