-- ==== Sys2Proof/Config.lean ====
section
/-! DEFINITION. What one instance of the block fixes: the tunables `D`, `L0_SB`, `CAP_N` (00_scope.md R6, R7, R8, R19), and the free values (93_implementation_defined.md U12). -/

namespace Sys2Proof

/-- The configuration of an instance: "What is configuration and not state" (00_scope.md R19).
It is carried in `State.cfg` and no step changes it (log 1). -/
structure Config where
  /-- `D`, the select cache sampling distance (R6). -/
  d : Nat
  /-- `L0_SB`, the superblock number at which the second L0 region begins (R7). -/
  l0sb : Nat
  /-- `CAP_N`, the largest `N` the memories of the instance can hold (R8, 10_state.md R25). -/
  capN : Nat
deriving DecidableEq, Repr

/-- The default parameters: `D = 8192` (R6), `L0_SB = 2^31` (R7).
`CAP_N` is OPEN in the spec; DESIGN CHOICE `N_MAX = 2^44` (log 2). -/
def Config.default : Config := { d := 8192, l0sb := 2 ^ 31, capN := 2 ^ 44 }

/-- FREE VALUE (log 4): what a memory element that nothing has written since the last reset holds,
by the number of resets so far, the space code of 20_memory.md R60 and the element index.
"W, C1, C0: unspecified (every element any value)" (10_state.md R43); it has no body, so nothing can say which value. -/
opaque Config.freeElem : (epoch : Nat) → (space : Nat) → (index : Nat) → Word

end Sys2Proof
end

