-- ==== Sys2Proof/Machine/Geometry.lean ====
section
/-! DEFINITION. Lengths and depths derived from the configuration and the bit counts (00_scope.md R5, R8, R15; 10_state.md R25). They are not state (92_eei_decisions.md D3). -/

namespace Sys2Proof.Machine

/-- `N_MAX = 2 * L0_SB * 4096` (00_scope.md R8). -/
def nMax (c : Config) : Nat := 2 * c.l0sb * 4096

/-- The supported configurations: `D >= 64` (R6), `1 <= L0_SB <= 2^31` (R7, 10_state.md R38), `1 <= CAP_N <= N_MAX` (92_eei_decisions.md D25). -/
def configOk (c : Config) : Bool :=
  decide (64 ≤ c.d) && decide (1 ≤ c.l0sb) && decide (c.l0sb ≤ 2 ^ 31) &&
    decide (1 ≤ c.capN) && decide (c.capN ≤ nMax c)

/-- `ceil(a / b)` (00_scope.md R11). -/
def ceilDiv (a b : Nat) : Nat := (a + (b - 1)) / b

/-- `NW = ceil(N/64)`, the number of words of `W` in use (R15). -/
def wordsFor (n : Nat) : Nat := ceilDiv n 64

/-- `G = ceil(NW/64)`, the number of the guard superblock entry (R15). -/
def guardFor (n : Nat) : Nat := ceilDiv (wordsFor n) 64

/-- `NSB = G + 1`, the number of superblock entries in use (R15; 90_conflicts.md C1). -/
def entriesFor (n : Nat) : Nat := guardFor n + 1

/-- `W_DEPTH = ceil(CAP_N/64)` (10_state.md R25). -/
def wDepth (c : Config) : Nat := ceilDiv c.capN 64

/-- The depth of `S`: `2 * (ceil(W_DEPTH/64) + 1)` (R25). -/
def sDepth (c : Config) : Nat := 2 * (ceilDiv (wDepth c) 64 + 1)

/-- The depth of `C1` and of `C0`: `floor(CAP_N/D)` (R25). -/
def cacheDepth (c : Config) : Nat := c.capN / c.d

end Sys2Proof.Machine
end

