-- ==== Sys2Proof/Machine/Ports.lean ====
section
/-! DEFINITION. What arrives at the block from outside: command words, LOAD transactions, the reset event (30_encoding.md R80; 20_memory.md R60, R73; 70_reset_and_hazards.md R215). -/

namespace Sys2Proof.Machine

/-- The four data spaces and the register space (20_memory.md R60). -/
inductive Space where
  | reg | w | s | c1 | c0
deriving DecidableEq, Repr

/-- The load-port code of a space: 3 bits, 5 to 7 reserved (R60, R73). -/
def spaceOfCode (code : BitVec 3) : Option Space :=
  match code.toNat with
  | 0 => some .reg
  | 1 => some .w
  | 2 => some .s
  | 3 => some .c1
  | 4 => some .c0
  | _ => none

/-- The code of a space, the inverse of `spaceOfCode` (R60). -/
def codeOfSpace : Space → BitVec 3
  | .reg => 0
  | .w => 1
  | .s => 2
  | .c1 => 3
  | .c0 => 4

/-- The six scalar registers (10_state.md R24). -/
inductive ScalarReg where
  | n | l0Ones | oneCount | zeroCount | lastOnePos | lastZeroPos
deriving DecidableEq, Repr

/-- The load index of a scalar register (R24). -/
def scalarOfIndex (index : Nat) : Option ScalarReg :=
  match index with
  | 0 => some .n
  | 1 => some .l0Ones
  | 2 => some .oneCount
  | 3 => some .zeroCount
  | 4 => some .lastOnePos
  | 5 => some .lastZeroPos
  | _ => none

/-- One transaction from outside. A LOAD carries its raw space code, so that a reserved code can be presented and refused (R73). -/
inductive Transaction where
  /-- A word on the command port (30_encoding.md R80). -/
  | command (word : CommandWord)
  /-- `LOAD(space, index, data)` on the load port (20_memory.md R73). -/
  | load (space : BitVec 3) (index data : Word)
  /-- The reset event (70_reset_and_hazards.md R215). -/
  | reset
deriving DecidableEq, Repr

/-- What a well-formed LOAD writes (20_memory.md R73). -/
inductive LoadTarget where
  /-- `READY <- data[0]` (register index 6). -/
  | control (ready : Bool)
  /-- `REG.<index> <- data`. -/
  | scalar (r : ScalarReg) (v : Word)
  | elemW (index : Nat) (v : Word)
  | elemS (index : Nat) (v : Word)
  | elemC1 (index : Nat) (v : CacheEntry)
  | elemC0 (index : Nat) (v : CacheEntry)
deriving DecidableEq, Repr

end Sys2Proof.Machine
end

