-- ==== Sys2Proof/Syntax.lean ====
section
/-! DEFINITION. The five commands of the block, one constructor per row of spec/opcode_table.json (30_encoding.md R82). -/

namespace Sys2Proof

/-- A decoded command: the operation and its one 64-bit operand (30_encoding.md R81, R83). -/
inductive Instr where
  /-- ACCESS: the bit at position `i` (40_access.md R101). -/
  | access (i : Word)
  /-- RANK0: the 0-bits strictly before position `i` (41_rank.md R129). -/
  | rank0 (i : Word)
  /-- RANK1: the 1-bits strictly before position `i` (41_rank.md R128). -/
  | rank1 (i : Word)
  /-- SELECT0: the position of the `k`-th 0-bit (42_select_locate.md R142). -/
  | select0 (k : Word)
  /-- SELECT1: the position of the `k`-th 1-bit (42_select_locate.md R141). -/
  | select1 (k : Word)
deriving DecidableEq, Repr

/-- The operand `arg` of a command (30_encoding.md R81). -/
def Instr.arg : Instr → Word
  | .access i => i
  | .rank0 i => i
  | .rank1 i => i
  | .select0 k => k
  | .select1 k => k

end Sys2Proof
end

