-- ==== Sys2Proof/WellFormed.lean ====
section
/-! DEFINITION. Which terms and transactions are well formed: commands (30_encoding.md R84, R87 to R89) and LOAD transactions (20_memory.md R73). -/

namespace Sys2Proof

/-- Every command accepts every 64-bit operand (30_encoding.md R89), and the operand's type holds nothing else. -/
def Instr.wf : Instr → Bool
  | .access _ => true
  | .rank0 _ => true
  | .rank1 _ => true
  | .select0 _ => true
  | .select1 _ => true

/-- A command word that is not reserved: `cmd[66:64]` is none of 001 (R88), 110, 111 (R87). -/
def commandWf (word : CommandWord) : Bool :=
  let top := word.toNat / 2 ^ 64
  !(top == 1) && !(top == 6) && !(top == 7)

open Machine in
/-- The form rules of a LOAD (20_memory.md R73): no reserved space code, no reserved register index, no index past the memory depth, no non-zero must-be-zero bit. -/
def loadWf (c : Config) (space : BitVec 3) (index data : Word) : Bool :=
  match spaceOfCode space with
  | none => false
  | some .reg => decide (index.toNat ≤ 5) || (decide (index.toNat = 6) && decide (data.toNat < 2))
  | some .w => decide (index.toNat < wDepth c)
  | some .s => decide (index.toNat < sDepth c)
  | some .c1 => decide (index.toNat < cacheDepth c) && decide (data.toNat < 2 ^ 32)
  | some .c0 => decide (index.toNat < cacheDepth c) && decide (data.toNat < 2 ^ 32)

/-- Well-formed transactions. -/
def transactionWf (c : Config) : Machine.Transaction → Bool
  | .command word => commandWf word
  | .load space index data => loadWf c space index data
  | .reset => true

end Sys2Proof
end

