-- ==== Sys2Proof/Decode.lean ====
section
/-! DEFINITION. Decoding and encoding of the command word (30_encoding.md R80 to R85, R87, R88, R91). -/

namespace Sys2Proof

/-- Why a command word is no command. -/
inductive DecodeError where
  /-- `op = 11` is reserved (30_encoding.md R87). -/
  | reservedOp
  /-- `cmd[66:64] = 001`, access with `b = 1`, is reserved (R88). -/
  | reservedAccessB
deriving DecidableEq, Repr

/-- The field `op = cmd[66:65]` (R81). -/
def opField (word : CommandWord) : BitVec 2 := word.extractLsb' 65 2

/-- The field `b = cmd[64]` (R81). -/
def bField (word : CommandWord) : BitVec 1 := word.extractLsb' 64 1

/-- The field `arg = cmd[63:0]`, used as it stands (R81, R85). -/
def argField (word : CommandWord) : Word := word.extractLsb' 0 64

/-- The decoder: total on all `2^67` words (R82, R84). -/
def decode (word : CommandWord) : Except DecodeError Instr :=
  match (opField word).toNat, (bField word).toNat with
  | 0, 0 => .ok (.access (argField word))
  | 0, _ => .error .reservedAccessB
  | 1, 0 => .ok (.rank0 (argField word))
  | 1, _ => .ok (.rank1 (argField word))
  | 2, 0 => .ok (.select0 (argField word))
  | 2, _ => .ok (.select1 (argField word))
  | _, _ => .error .reservedOp

/-- The three high bits `cmd[66:64]` of a command (the opcode map, R82). -/
def opcodeOf : Instr → BitVec 3
  | .access _ => 0b000
  | .rank0 _ => 0b010
  | .rank1 _ => 0b011
  | .select0 _ => 0b100
  | .select1 _ => 0b101

/-- The encoder: the opcode bits above the operand (R81, R82, R91). -/
def encode (i : Instr) : CommandWord := (opcodeOf i ++ i.arg : BitVec (3 + 64))

/-- The command word in an instruction word of the opcode table: `cmd[66:0]` is its low 67 bits.
The table's `nbits` counts whole bytes; the command port has no wire for the bits above bit 66 (log 14). -/
def tableWord (nbits w : Nat) : CommandWord := BitVec.ofNat 67 (w % 2 ^ nbits)

/-- The instruction the decoder reads from a word of the opcode table. -/
def decodeTableWord (nbits w : Nat) : Option Instr :=
  match decode (tableWord nbits w) with
  | .ok i => some i
  | .error _ => none

end Sys2Proof
end

