-- ==== Sys2Proof/Machine/Bits.lean ====
section
/-! DEFINITION. The bit primitives of the datapath: BIT, popcount, clz, and the within-word select (00_scope.md R13; 40_access.md R100; 43_select_scan.md R170, R171). -/

namespace Sys2Proof.Machine

/-- `BIT(w, j) = (w >> j) & 1` (40_access.md R100). -/
def bitOf (w : Word) (j : Nat) : Word := (w >>> j) &&& 1#64

/-- The number of 1-bits of `x` at positions below `n`. -/
def popcountBelow (x : Word) : Nat → Nat
  | 0 => 0
  | n + 1 => popcountBelow x n + (x.getLsbD n).toNat

/-- `popcount(x)`: the number of 1-bits of the 64-bit word `x` (00_scope.md R13). -/
def popcount (x : Word) : Nat := popcountBelow x 64

/-- The highest 1-bit of `x` at a position below `n`. -/
def topBitBelow (x : Word) : Nat → Option Nat
  | 0 => none
  | n + 1 => if x.getLsbD n then some n else topBitBelow x n

/-- `clz(x)`: the number of leading zeros, `63 - (index of the highest set bit)`.
"`clz(0)` is not defined here" (00_scope.md R13): none (log 23). -/
def clz? (x : Word) : Option Nat := (topBitBelow x 64).map (fun j => 63 - j)

/-- Scan the bits `64 - n, .., 63` of `x` upwards for the `r`-th set one, `r >= 1`. -/
def bitSelFrom (x : Word) : (n : Nat) → (r : Nat) → Option Nat
  | 0, _ => none
  | n + 1, r =>
    if x.getLsbD (63 - n) then
      if r = 1 then some (63 - n) else bitSelFrom x n (r - 1)
    else bitSelFrom x n r

/-- `BITSEL(x, r)` (43_select_scan.md R171): the index of the `r`-th set bit of `x`, counted from bit 0; 0 when `r = 0`; not defined (none) when `r > popcount(x)`. -/
def bitSel (x : Word) (r : Nat) : Option Nat := if r = 0 then some 0 else bitSelFrom x 64 r

/-- The loop of the source's reference procedure, `fuel` iterations at most: `r` counts down, `x` shifts right, `idx` is the index of the bit just looked at, held one higher so that it starts at 0 for `idx = -1` (43_select_scan.md R170). None when the fuel ends before `r` is 0. -/
def referenceLoop : (fuel : Nat) → (r : Nat) → (x : Word) → (idx1 : Nat) → Option Nat
  | _, 0, _, idx1 => some (idx1 - 1)
  | 0, _ + 1, _, _ => none
  | fuel + 1, r + 1, x, idx1 => referenceLoop fuel (r + 1 - (x &&& 1#64).toNat) (x >>> 1) (idx1 + 1)

/-- The source's reference procedure of step D with 64 iterations of its loop (R170, 70_reset_and_hazards.md R244). -/
def referenceSelect (x : Word) (r : Nat) : Option Nat := if r = 0 then some 0 else referenceLoop 64 r x 0

end Sys2Proof.Machine
end

