-- ==== Sys2Proof/Machine/Operands.lean ====
section
/-! DEFINITION. What the operation rules cut from an operand and from a metadata entry: COORD and POS (41_rank.md R120, 43_select_scan.md R172), the fields of a superblock entry and their encoding (10_state.md R27; 40_access.md R103, R104; 41_rank.md R123; 43_select_scan.md R166), the arithmetic helpers (00_scope.md R11). -/

namespace Sys2Proof.Machine

/-- The coordinates of a position (41_rank.md R120). -/
structure Coord where
  sb : Nat
  blk : Nat
  word : Nat
  bit : Nat
deriving DecidableEq, Repr

/-- `COORD(i)`: `sb = i >> 12`, `blk = (i >> 9) & 7`, `word = (i >> 6) & 7`, `bit = i & 63` (41_rank.md R120). -/
def coord (i : Word) : Coord :=
  { sb := (i >>> 12).toNat
    blk := ((i >>> 9) &&& 7#64).toNat
    word := ((i >>> 6) &&& 7#64).toNat
    bit := (i &&& 63#64).toNat }

/-- `POS(T, blk, w, j) = T*4096 + blk*512 + w*64 + j` (43_select_scan.md R172). -/
def posOf (t blk w j : Nat) : Word := BitVec.ofNat 64 (t * 4096 + blk * 512 + w * 64 + j)

/-- The index in `W` of the first word of a block: `base = sb*64 + blk*8` (41_rank.md R124). -/
def blockBase (sb blk : Nat) : Nat := sb * 64 + blk * 8

/-- `satdec(x) = max(x, 1) - 1`, the decrement that stops at 0 (00_scope.md R11). -/
def satdec (x : Nat) : Nat := max x 1 - 1

/-- The decrement of a 64-bit number modulo `2^64` (R12, D21; log 8). -/
def dec64 (x : Nat) : Nat := (BitVec.ofNat 64 x - 1#64).toNat

/-- `FIELD_R(m1) = m1[63:20]` (40_access.md R103). -/
def fieldR (m1 : Word) : Word := m1 >>> 20

/-- `FIELD_B(m1, m2, k)` for `k` in `0..6` (40_access.md R104).
`k = 7` does not exist and no caller asks for it. -/
def fieldB (m1 m2 : Word) (k : Nat) : Word :=
  match k with
  | 0 => (m1 >>> 8) &&& 0xFFF#64
  | 1 => ((m1 &&& 0xFF#64) <<< 4) ||| (m2 >>> 60)
  | k + 2 => (m2 >>> (12 * k)) &&& 0xFFF#64

/-- The entry encoding, first word: `m1 = r * 2^20 + b_0 * 2^8 + floor(b_1 / 16)` (10_state.md R27). -/
def entryM1 (r : Nat) (b : Nat → Nat) : Word := BitVec.ofNat 64 (r * 2 ^ 20 + b 0 * 2 ^ 8 + b 1 / 16)

/-- The entry encoding, second word (10_state.md R27). -/
def entryM2 (b : Nat → Nat) : Word :=
  BitVec.ofNat 64 (b 1 % 16 * 2 ^ 60 + b 6 * 2 ^ 48 + b 5 * 2 ^ 36 + b 4 * 2 ^ 24 + b 3 * 2 ^ 12 + b 2)

/-- `PREFIX_BLOCK(m1, m2, blk)`: 0 for block 0, field `b_(blk-1)` otherwise (41_rank.md R123). -/
def prefixBlock (m1 m2 : Word) (blk : Nat) : Word :=
  match blk with
  | 0 => 0#64
  | k + 1 => fieldB m1 m2 k

/-- `BLKCNT(j, b)`: the `b`-bits in blocks `0..j`; for `b = 0` the count is inverted against `(j+1)*512` (43_select_scan.md R166). -/
def blkCnt (m1 m2 : Word) (j : Nat) (b : Bool) : Word :=
  if b then fieldB m1 m2 j else BitVec.ofNat 64 ((j + 1) * 512) - fieldB m1 m2 j

/-- Test the blocks `7 - n, .., 6` in order. -/
def blkSelFrom (m1 m2 rem : Word) (b : Bool) : (n : Nat) → Nat
  | 0 => 7
  | n + 1 => if rem ≤ blkCnt m1 m2 (6 - n) b then 6 - n else blkSelFrom m1 m2 rem b n

/-- `BLKSEL(rem, b)`: the smallest block whose cumulative count reaches `rem`, else block 7 (43_select_scan.md R167). -/
def blkSel (m1 m2 rem : Word) (b : Bool) : Nat := blkSelFrom m1 m2 rem b 7

/-- The ordinal of the sought bit inside its block (43_select_scan.md R168). -/
def remInBlock (m1 m2 rem : Word) (b : Bool) : Word :=
  match blkSel m1 m2 rem b with
  | 0 => rem
  | k + 1 => rem - blkCnt m1 m2 k b

end Sys2Proof.Machine
end

