-- ==== Sys2Proof/Machine/Memory.lean ====
section
/-! DEFINITION. One element-indexed memory as plain data: the elements that have been written, in rising index order (20_memory.md R60, R61; log 5). -/

namespace Sys2Proof.Machine

/-- A memory of `k`-bit elements: the written elements, indices strictly rising.
An element that is not listed has not been written since the last reset. -/
abbrev Mem (k : Nat) := List (Nat × BitVec k)

/-- The value written at an index, none where nothing has been written. -/
def memGet {k : Nat} : Mem k → Nat → Option (BitVec k)
  | [], _ => none
  | (a, v) :: m, i => if a = i then some v else memGet m i

/-- Store one element, keeping the canonical form. -/
def memSet {k : Nat} : Mem k → Nat → BitVec k → Mem k
  | [], i, v => [(i, v)]
  | (a, x) :: m, i, v =>
    if i < a then (i, v) :: (a, x) :: m
    else if i = a then (i, v) :: m
    else (a, x) :: memSet m i v

/-- Every listed index is above `lo`, and the indices rise strictly. -/
def memRises {k : Nat} (lo : Nat) : Mem k → Bool
  | [] => true
  | (a, _) :: m => decide (lo < a) && memRises a m

/-- The canonical form: indices strictly rising (so no index twice).
An unlisted element reads as a free value, which no entry can equal by form. -/
def memWf {k : Nat} : Mem k → Bool
  | [] => true
  | (a, _) :: m => memRises a m

/-- Every listed index is below the depth of the memory (10_state.md R25). -/
def memBelow {k : Nat} (depth : Nat) : Mem k → Bool
  | [] => true
  | (a, _) :: m => decide (a < depth) && memBelow depth m

end Sys2Proof.Machine
end

