-- ==== Sys2Proof/Machine/State.lean ====
section
/-! DEFINITION. The architectural state (10_state.md R20 to R26), the faults and refusals of a step (60_exceptions.md R191), and the state after reset (10_state.md R43). -/

namespace Sys2Proof.Machine

/-- Faults: the broken caller obligations that the model gives no result to (60_exceptions.md R190, R191).
The hardware raises nothing and goes on; stopping is safe (log 7). -/
inductive Fault where
  /-- V1 NOT_READY: a command while `READY = 0`. Raised by every command. Safe. -/
  | notReady
  /-- V2 EMPTY: a command while `N = 0`. Raised by every command. Safe. -/
  | empty
  /-- V3 ACCESS_RANGE: ACCESS with `i >= N`. Raised by ACCESS. Safe. -/
  | accessRange
  /-- V4 SELECT_RANGE: SELECT with `k > total(b)`, or no word of the block reaches the count (92_eei_decisions.md D29). Raised by SELECT1, SELECT0. Safe. -/
  | selectRange
  /-- V6 INDEX_RANGE: a read at an index outside the valid range of its space (20_memory.md R67). Raised by every command. Safe. -/
  | indexRange
deriving DecidableEq, Repr

/-- Refusals: transactions that are not accepted; no response, no state change (93_implementation_defined.md, `refuse`). -/
inductive Refusal where
  /-- An instruction without a meaning: raised by no arm of this model. Safe. -/
  | notModelled (mnemonic : String)
  /-- A command word with `op = 11` (30_encoding.md R87). Raised by the command port. Safe. -/
  | reservedOp
  /-- A command word with `cmd[66:64] = 001` (30_encoding.md R88). Raised by the command port. Safe. -/
  | reservedAccessB
  /-- A configuration or an `N` outside the supported range (93_implementation_defined.md U15). Raised by every command and LOAD. Safe (log 3). -/
  | unsupportedConfig
  /-- V7 LOAD_WHILE_READY: a LOAD to anything but the control register while `READY = 1` (60_exceptions.md R191). Raised by the load port. Safe. -/
  | loadWhileReady
  /-- A LOAD with space code 5, 6 or 7 (20_memory.md R73). Raised by the load port. Safe. -/
  | loadReservedSpace
  /-- A LOAD to `REG` with an index above 6 (R73). Raised by the load port. Safe. -/
  | loadReservedRegister
  /-- A LOAD past the depth of its memory (R73). Raised by the load port. Safe. -/
  | loadPastDepth
  /-- A LOAD with a non-zero must-be-zero bit (R73). Raised by the load port. Safe. -/
  | loadNonZeroBits
deriving DecidableEq, Repr

/-- The whole state of the block (10_state.md R20), its frozen configuration (log 1), and the model's own fields for the world outside (log 4, log 6). -/
structure State where
  /-- `D`, `L0_SB`, `CAP_N` (00_scope.md R19); no step changes them. -/
  cfg : Config
  /-- `N`, the number of bits of `B` (R24). -/
  regN : Word
  /-- `L0Ones`, the 1-count of the first L0 region (R24, R34). -/
  l0Ones : Word
  /-- `oneCount` (R24, R35). -/
  oneCount : Word
  /-- `zeroCount` (R24, R35). -/
  zeroCount : Word
  /-- `lastOnePos` (R24, R36). -/
  lastOnePos : Word
  /-- `lastZeroPos` (R24, R36). -/
  lastZeroPos : Word
  /-- `READY` (R26). -/
  ready : Bool
  /-- `W`, the raw bit store (R21). -/
  memW : Mem 64
  /-- `S`, the superblock metadata array (R22). -/
  memS : Mem 64
  /-- `C1`, the select cache of the 1-bits (R23). -/
  memC1 : Mem 32
  /-- `C0`, the select cache of the 0-bits (R23). -/
  memC0 : Mem 32
  /-- MODEL's own: how many reset events have happened; names the free memory contents (log 4). -/
  epoch : Nat
  /-- MODEL's own: what has arrived and is not yet served, oldest first (log 6). -/
  pending : List Transaction
  /-- MODEL's own: the response words delivered, oldest first (30_encoding.md R86; log 6). -/
  responses : List Word
deriving DecidableEq, Repr

/-- The state after reset of an instance with configuration `c` (10_state.md R43, 70_reset_and_hazards.md R215): `READY = 0`, the six scalar registers 0, the memories unspecified. -/
def State.resetWith (c : Config) : State :=
  { cfg := c, regN := 0, l0Ones := 0, oneCount := 0, zeroCount := 0, lastOnePos := 0, lastZeroPos := 0,
    ready := false, memW := [], memS := [], memC1 := [], memC0 := [], epoch := 0, pending := [], responses := [] }

/-- The state after reset, with the default configuration (10_state.md R43; log 2). -/
def State.reset : State := State.resetWith Config.default

end Sys2Proof.Machine
end

