-- ==== Sys2Proof/Machine/Ops.lean ====
section
/-! DEFINITION. The named operations over the state that the commands share: lengths, element reads, the counts CUM1 and CUM, the response, the contract tests in their order, and the reset event (10_state.md; 20_memory.md; 40_access.md R102; 41_rank.md R121, R122; 60_exceptions.md R191, R199). -/

namespace Sys2Proof.Machine

/-! ### Lengths in use -/

/-- `NW` (00_scope.md R15). -/
def State.nw (s : State) : Nat := wordsFor s.regN.toNat

/-- `NSB` (R15). -/
def State.nsb (s : State) : Nat := entriesFor s.regN.toNat

/-- `total(b)` (R15). -/
def State.total (s : State) (b : Bool) : Word := if b then s.oneCount else s.zeroCount

/-- The cached position of the last `b`-bit (42_select_locate.md R140). -/
def State.lastPos (s : State) (b : Bool) : Word := if b then s.lastOnePos else s.lastZeroPos

/-- `CL(b) = floor(total(b)/D)` (R15). -/
def State.cacheLen (s : State) (b : Bool) : Nat := (s.total b).toNat / s.cfg.d

/-- The configuration and `N` are in the supported range (93_implementation_defined.md U15; 00_scope.md R8). -/
def State.supported (s : State) : Bool := configOk s.cfg && decide (s.regN.toNat ≤ nMax s.cfg)

/-! ### Elements -/

/-- What element `W[v]` holds: the value written, a free value where nothing has been written (log 4). -/
def State.elemW (s : State) (v : Nat) : Word := (memGet s.memW v).getD (Config.freeElem s.epoch 1 v)

/-- What element `S[v]` holds. -/
def State.elemS (s : State) (v : Nat) : Word := (memGet s.memS v).getD (Config.freeElem s.epoch 2 v)

/-- What element `C1[j]` (`b = 1`) or `C0[j]` (`b = 0`) holds. -/
def State.elemC (s : State) (b : Bool) (j : Nat) : CacheEntry :=
  if b then (memGet s.memC1 j).getD ((Config.freeElem s.epoch 3 j).truncate 32)
  else (memGet s.memC0 j).getD ((Config.freeElem s.epoch 4 j).truncate 32)

/-- `MemRead(W:v, 64)`: V6 outside `0..NW-1` or past the depth (20_memory.md R60, R67; log 9). -/
def readW (s : State) (v : Nat) : Except Fault Word :=
  if v < s.nw ∧ v < wDepth s.cfg then .ok (s.elemW v) else .error .indexRange

/-- `MemRead(S:v, 64)`: V6 outside `0..2*NSB-1` or past the depth (R60, R67). -/
def readS (s : State) (v : Nat) : Except Fault Word :=
  if v < 2 * s.nsb ∧ v < sDepth s.cfg then .ok (s.elemS v) else .error .indexRange

/-- `zext_64(MemRead(C_b:j, 32))` as a number: V6 outside `0..CL(b)-1` or past the depth (R60, R67; 10_state.md R23). -/
def readC (s : State) (b : Bool) (j : Nat) : Except Fault Nat :=
  if j < s.cacheLen b ∧ j < cacheDepth s.cfg then .ok (s.elemC b j).toNat else .error .indexRange

/-- `META(sb)`: the pair `m1 = S[2*sb]`, `m2 = S[2*sb+1]` (40_access.md R102). -/
def metaAt (s : State) (sb : Nat) : Except Fault (Word × Word) := do
  let m1 ← readS s (2 * sb)
  let m2 ← readS s (2 * sb + 1)
  return (m1, m2)

/-- The L0 term of superblock `sb`: `L0Ones if sb >= L0_SB else 0` (41_rank.md R121; 90_conflicts.md C2). -/
def State.l0Term (s : State) (sb : Nat) : Word := if s.cfg.l0sb ≤ sb then s.l0Ones else 0#64

/-- `CUM1(sb)`: the 1-bits before superblock `sb` (41_rank.md R121). -/
def cum1 (s : State) (sb : Nat) : Except Fault Word := do
  let m ← metaAt s sb
  return fieldR m.1 + s.l0Term sb

/-- `CUM(sb, b)`: the `b`-bits before superblock `sb` (41_rank.md R122). -/
def cum (s : State) (sb : Nat) (b : Bool) : Except Fault Word := do
  let c ← cum1 s sb
  return if b then c else BitVec.ofNat 64 (sb * 4096) - c

/-! ### Responses and the contract -/

/-- `respond(v)`: the response word leaves the block; nothing else changes (30_encoding.md R86; 10_state.md R39). -/
def State.respond (s : State) (v : Word) : State := { s with responses := s.responses ++ [v] }

/-- One command: the contract tests that every command shares, V1 before V2 (60_exceptions.md R199), then the supported range (log 3), then its own computation; a broken obligation is the fault of this command, and the model's one way of raising it (R190, R200). -/
def runQuery (s : State) (body : Except Fault Word) : Host.Outcome State Fault Refusal :=
  if s.ready = false then .fault .notReady
  else if s.regN = 0#64 then .fault .empty
  else if s.supported = false then .refused .unsupportedConfig
  else match body with
    | .ok v => .next (s.respond v)
    | .error f => .fault f

/-- The state the block is in once the transaction at the head of `pending` is gone, whatever came of it (60_exceptions.md R200). -/
def State.drop (s : State) : State := { s with pending := s.pending.tail }

/-- The reset event (70_reset_and_hazards.md R215): the state of 10_state.md R43 for the same instance.
What has not arrived yet and what has already left are outside the block (log 12); the memories hold new unspecified values (log 4). -/
def State.resetEvent (s : State) : State :=
  { State.resetWith s.cfg with epoch := s.epoch + 1, pending := s.pending, responses := s.responses }

/-! ### Writes of the load port -/

/-- `REG.<r> <- v` (20_memory.md R73; 10_state.md R24). -/
def State.setScalar (s : State) (r : ScalarReg) (v : Word) : State :=
  match r with
  | .n => { s with regN := v }
  | .l0Ones => { s with l0Ones := v }
  | .oneCount => { s with oneCount := v }
  | .zeroCount => { s with zeroCount := v }
  | .lastOnePos => { s with lastOnePos := v }
  | .lastZeroPos => { s with lastZeroPos := v }

/-- The value of a scalar register. -/
def State.scalar (s : State) (r : ScalarReg) : Word :=
  match r with
  | .n => s.regN
  | .l0Ones => s.l0Ones
  | .oneCount => s.oneCount
  | .zeroCount => s.zeroCount
  | .lastOnePos => s.lastOnePos
  | .lastZeroPos => s.lastZeroPos

/-- `READY <- v` (20_memory.md R73, register index 6). -/
def State.setReady (s : State) (v : Bool) : State := { s with ready := v }

/-- `MemWrite(W:i, 64, v)` (R73). -/
def State.setW (s : State) (i : Nat) (v : Word) : State := { s with memW := memSet s.memW i v }

/-- `MemWrite(S:i, 64, v)` (R73). -/
def State.setS (s : State) (i : Nat) (v : Word) : State := { s with memS := memSet s.memS i v }

/-- `MemWrite(C1:i, 32, v)` (R73). -/
def State.setC1 (s : State) (i : Nat) (v : CacheEntry) : State := { s with memC1 := memSet s.memC1 i v }

/-- `MemWrite(C0:i, 32, v)` (R73). -/
def State.setC0 (s : State) (i : Nat) (v : CacheEntry) : State := { s with memC0 := memSet s.memC0 i v }

end Sys2Proof.Machine
end

