-- ==== Sys2Proof/Machine/Access.lean ====
section
/-! DEFINITION. Unit 1, the packed-word bit-field extractor: ACCESS (40_access.md R101). -/

namespace Sys2Proof.Machine

/-- The operand test V3 and the datapath of ACCESS (40_access.md R101). -/
def accessBit (s : State) (i : Word) : Except Fault Word :=
  if s.regN ≤ i then .error .accessRange
  else do
    let w ← readW s (i >>> 6).toNat
    return bitOf w (i &&& 63#64).toNat

/-- ACCESS (40_access.md R101). -/
def execAccess (i : Word) (s : State) : Host.Outcome State Fault Refusal := runQuery s (accessBit s i)

end Sys2Proof.Machine
end

