-- ==== Sys2Proof/Machine/Rank.lean ====
section
/-! DEFINITION. Unit 2, the hierarchical popcount and offset resolver: RANK1, RANK0 (41_rank.md R124 to R129). -/

namespace Sys2Proof.Machine

/-- `WORDSUM(base, word)`: the 1-bits of the whole words of the block before the target word (41_rank.md R124). -/
def wordSum (s : State) (base : Nat) : (word : Nat) → Except Fault Word
  | 0 => .ok 0#64
  | k + 1 => do
    let acc ← wordSum s base k
    let x ← readW s (base + k)
    return acc + BitVec.ofNat 64 (popcount x)

/-- `PARTIAL(base, word, bit)`: the 1-bits of the target word below bit `bit`; no read is issued when `bit = 0` (41_rank.md R125). -/
def partialSum (s : State) (base word bit : Nat) : Except Fault Word :=
  if bit = 0 then .ok 0#64
  else do
    let x ← readW s (base + word)
    return BitVec.ofNat 64 (popcount (x &&& ((1#64 <<< bit) - 1#64)))

/-- `RANK1FN(i)`: the sum of the five terms (41_rank.md R126). -/
def rank1Fn (s : State) (i : Word) : Except Fault Word := do
  let c := coord i
  let m ← metaAt s c.sb
  let whole ← wordSum s (blockBase c.sb c.blk) c.word
  let part ← partialSum s (blockBase c.sb c.blk) c.word c.bit
  return fieldR m.1 + s.l0Term c.sb + prefixBlock m.1 m.2 c.blk + whole + part

/-- The sum of the five terms as the document writes it, over the elements the state holds (41_rank.md R126): what `rank1Fn` answers when every index is in range. -/
def rank1Value (s : State) (i : Word) : Word :=
  let c := coord i
  let m1 := s.elemS (2 * c.sb)
  let m2 := s.elemS (2 * c.sb + 1)
  let base := blockBase c.sb c.blk
  fieldR m1 + s.l0Term c.sb + prefixBlock m1 m2 c.blk
    + BitVec.ofNat 64 ((List.range c.word).map (fun k => popcount (s.elemW (base + k)))).sum
    + BitVec.ofNat 64 (popcount (s.elemW (base + c.word) &&& ((1#64 <<< c.bit) - 1#64)))

/-- `CLAMP(i)`: "If `i > N`, it is clamped to `N − 1`" (41_rank.md R127). -/
def clamp (s : State) (i : Word) : Word := if s.regN < i then s.regN - 1#64 else i

/-- The value of `RANK0` at a clamped position: `rank(i, 0) = i − rank1(i)` (41_rank.md R129). -/
def rank0Fn (s : State) (i2 : Word) : Except Fault Word := do
  let r ← rank1Fn s i2
  return i2 - r

/-- RANK0 (41_rank.md R129). -/
def execRank0 (i : Word) (s : State) : Host.Outcome State Fault Refusal := runQuery s (rank0Fn s (clamp s i))

/-- RANK1 (41_rank.md R128). -/
def execRank1 (i : Word) (s : State) : Host.Outcome State Fault Refusal := runQuery s (rank1Fn s (clamp s i))

end Sys2Proof.Machine
end

