-- ==== Sys2Proof/Machine/SelectScan.lean ====
section
/-! DEFINITION. Unit 4, the select-within-block scanner: steps B, C, D of select (43_select_scan.md R165 to R173). -/

namespace Sys2Proof.Machine

/-- What step C finds: the word's index in the block, the ordinal of the sought bit inside it, and the word, inverted for `b = 0` (43_select_scan.md R169). -/
structure WordHit where
  w : Nat
  r : Nat
  x : Word
deriving DecidableEq, Repr

/-- Look at the words `8 - n, .., 7` of the block at `base` for the `r`-th `b`-bit; V4 when no word reaches the count (43_select_scan.md R169; D29). -/
def wordSelFrom (s : State) (base : Nat) (b : Bool) : (n : Nat) → (r : Nat) → Except Fault WordHit
  | 0, _ => .error .selectRange
  | n + 1, r => do
    let y ← readW s (base + (7 - n))
    let x := if b then y else ~~~y
    if r ≤ popcount x then return { w := 7 - n, r := r, x := x }
    else wordSelFrom s base b n (r - popcount x)

/-- `WORDSEL(T, blk, rem2, b)` (43_select_scan.md R169). -/
def wordSel (s : State) (t blk : Nat) (rem2 : Word) (b : Bool) : Except Fault WordHit :=
  wordSelFrom s (blockBase t blk) b 8 rem2.toNat

/-- `SCAN(T, rem, b)` (43_select_scan.md R173). BITSEL is always defined on what step C finds; were it not, the command would be V4 (D29). -/
def scan (s : State) (t : Nat) (rem : Word) (b : Bool) : Except Fault Word := do
  let m ← metaAt s t
  let blk := blkSel m.1 m.2 rem b
  let hit ← wordSel s t blk (remInBlock m.1 m.2 rem b) b
  match bitSel hit.x hit.r with
  | some j => return posOf t blk hit.w j
  | none => .error .selectRange

end Sys2Proof.Machine
end

