-- ==== Sys2Proof/Machine/SelectLocate.lean ====
section
/-! DEFINITION. Unit 3, the select front end and the select cache lookup with binary-search bounds: SELECT1, SELECT0 (42_select_locate.md R140 to R149). -/

namespace Sys2Proof.Machine

/-- The lower bound of the bracket: `satdec(C_b[q-1])` where that entry exists, else 0 (42_select_locate.md R146). -/
def bracketStart (s : State) (b : Bool) (q : Nat) : Except Fault Nat :=
  if 1 ≤ q ∧ q - 1 < s.cacheLen b then do
    let e ← readC s b (q - 1)
    return satdec e
  else .ok 0

/-- The upper bound of the bracket: `C_b[q] + 1` where that entry exists, else `NSB - 1`, clamped to `NSB - 1` (R146). -/
def bracketEnd (s : State) (b : Bool) (q : Nat) : Except Fault Nat :=
  if q < s.cacheLen b then do
    let e ← readC s b q
    return min (e + 1) (s.nsb - 1)
  else .ok (s.nsb - 1)

/-- `BSEARCH`: while `lo < hi`, probe `mid = floor((lo+hi)/2)`; `CUM(mid, b) < k` moves `lo` to `mid + 1`, else `hi` to `mid`; the result is `lo - 1` (R147).
`fuel` bounds the iterations; 64 is never used up (R150, R244; log 17). -/
def bsearch (s : State) (k : Word) (b : Bool) : (fuel lo hi : Nat) → Except Fault Nat
  | 0, lo, _ => .ok (dec64 lo)
  | fuel + 1, lo, hi =>
    if lo < hi then do
      let c ← cum s ((lo + hi) / 2) b
      if c < k then bsearch s k b fuel ((lo + hi) / 2 + 1) hi
      else bsearch s k b fuel lo ((lo + hi) / 2)
    else .ok (dec64 lo)

/-- Case (c) of step A: the cache bracket and the search in it (R146, R147). -/
def locateByCache (s : State) (k : Word) (b : Bool) : Except Fault Nat := do
  let q := k.toNat / s.cfg.d
  let start ← bracketStart s b q
  let stop ← bracketEnd s b q
  bsearch s k b 64 start stop

/-- Case (b) and then (c) of step A (R145, R146). -/
def locateFar (s : State) (k : Word) (b : Bool) : Except Fault Nat := do
  let c ← cum s (s.nsb - 1) b
  if c < k then return s.nsb - 1
  else locateByCache s k b

/-- `LOCATE(k, b)`: step A, the superblock of the `k`-th `b`-bit (R143 to R147). -/
def locate (s : State) (k : Word) (b : Bool) : Except Fault Nat :=
  if s.nsb ≤ 1 then .ok 0
  else do
    let c ← cum s 1 b
    if k ≤ c then return 0
    else locateFar s k b

/-- The general path of select: LOCATE, the remaining count (R149), SCAN. -/
def selectGeneral (s : State) (k : Word) (b : Bool) : Except Fault Word := do
  let t ← locate s k b
  let c ← cum s t b
  scan s t (k - c) b

/-- `SELECT(k, b)`: sentinel, V4, fast path, general path, in this order (R140). -/
def select (s : State) (k : Word) (b : Bool) : Except Fault Word :=
  if k = 0#64 then .ok 0#64
  else if s.total b < k then .error .selectRange
  else if k = s.total b then .ok (s.lastPos b)
  else selectGeneral s k b

/-- SELECT0 (42_select_locate.md R142). -/
def execSelect0 (k : Word) (s : State) : Host.Outcome State Fault Refusal := runQuery s (select s k false)

/-- SELECT1 (42_select_locate.md R141). -/
def execSelect1 (k : Word) (s : State) : Host.Outcome State Fault Refusal := runQuery s (select s k true)

end Sys2Proof.Machine
end

