-- ==== Sys2Proof/Machine/Dispatch.lean ====
section
/-! DEFINITION. exec: one arm per command (30_encoding.md R82). -/

namespace Sys2Proof.Machine

def exec (i : Instr) (s : State) : Host.Outcome State Fault Refusal :=
  match i with
  | .access p => Sys2Proof.Machine.execAccess p s
  | .rank0 p => Sys2Proof.Machine.execRank0 p s
  | .rank1 p => Sys2Proof.Machine.execRank1 p s
  | .select0 k => Sys2Proof.Machine.execSelect0 k s
  | .select1 k => Sys2Proof.Machine.execSelect1 k s

end Sys2Proof.Machine
end

