-- ==== Sys2Proof/Machine/Flags.lean ====
section
/-! DEFINITION. The block has no flags and no condition codes (10_state.md R42), and no flag is computed by any command. What the spec does name beside a result are the violation codes V1 to V8 of 60_exceptions.md R191; they exist only in the spec and are recorded nowhere. -/

namespace Sys2Proof.Machine

/-- The violation codes (60_exceptions.md R191). -/
inductive Violation where
  | v1NotReady | v2Empty | v3AccessRange | v4SelectRange | v5RankOvershoot | v6IndexRange | v7LoadWhileReady | v8InvalidImage
deriving DecidableEq, Repr

/-- The code of a fault (R191). -/
def faultCode : Fault → Violation
  | .notReady => .v1NotReady
  | .empty => .v2Empty
  | .accessRange => .v3AccessRange
  | .selectRange => .v4SelectRange
  | .indexRange => .v6IndexRange

/-- The code of a refusal: V7 for a LOAD that came while `READY = 1` (R191); the reserved forms have no code. -/
def refusalCode (r : Refusal) : Option Violation := if r = .loadWhileReady then some .v7LoadWhileReady else none

/-- V5: the position given to a rank command is above `N`; the value is defined, the code is only noted (60_exceptions.md R192; log 19). -/
def overshoots (i : Instr) (s : State) : Bool :=
  match i with
  | .access _ => false
  | .rank0 p => decide (s.regN < p)
  | .rank1 p => decide (s.regN < p)
  | .select0 _ => false
  | .select1 _ => false

/-- The one code that a command is marked with, given its outcome: the first in the order of the tests, where the clamp (V5) comes before any read (V6) (R191, R199).
V8 is a premise on the state and marks no command (R196). -/
def noteOf (i : Instr) (s : State) (o : Host.Outcome State Fault Refusal) : Option Violation :=
  match o with
  | .fault f => if f = .indexRange ∧ overshoots i s = true then some .v5RankOvershoot else some (faultCode f)
  | .next _ => if overshoots i s then some .v5RankOvershoot else none
  | .refused r => refusalCode r

end Sys2Proof.Machine
end

