-- ==== Sys2Proof/Machine/LoadPort.lean ====
section
/-! DEFINITION. The load port: LOAD(space, index, data) (20_memory.md R73; 60_exceptions.md R191 V7; 70_reset_and_hazards.md R216, R238). -/

namespace Sys2Proof.Machine

/-- A LOAD to `REG`: index 0 to 5 a scalar register, 6 the control register (`data[63:1]` must be 0), above 6 reserved (R73). -/
def decodeRegLoad (index data : Word) : Except Refusal LoadTarget :=
  if index = 6#64 then
    if data >>> 1 = 0#64 then .ok (.control (data.getLsbD 0)) else .error .loadNonZeroBits
  else match scalarOfIndex index.toNat with
    | some r => .ok (.scalar r data)
    | none => .error .loadReservedRegister

/-- The 32-bit entry in a LOAD to a cache: `data[31:0]`, where `data[63:32]` must be 0 (R73). -/
def cacheData (data : Word) : Except Refusal CacheEntry :=
  if data >>> 32 = 0#64 then .ok (data.truncate 32) else .error .loadNonZeroBits

/-- What a LOAD writes, or why its form is refused (R73). -/
def decodeLoad (c : Config) (space : BitVec 3) (index data : Word) : Except Refusal LoadTarget :=
  match spaceOfCode space with
  | none => .error .loadReservedSpace
  | some .reg => decodeRegLoad index data
  | some .w => if index.toNat < wDepth c then .ok (.elemW index.toNat data) else .error .loadPastDepth
  | some .s => if index.toNat < sDepth c then .ok (.elemS index.toNat data) else .error .loadPastDepth
  | some .c1 =>
    if index.toNat < cacheDepth c then do
      let e ← cacheData data
      return .elemC1 index.toNat e
    else .error .loadPastDepth
  | some .c0 =>
    if index.toNat < cacheDepth c then do
      let e ← cacheData data
      return .elemC0 index.toNat e
    else .error .loadPastDepth

/-- The effect of an accepted LOAD (R73). -/
def applyLoad (s : State) : LoadTarget → State
  | .control v => s.setReady v
  | .scalar r v => s.setScalar r v
  | .elemW i v => s.setW i v
  | .elemS i v => s.setS i v
  | .elemC1 i v => s.setC1 i v
  | .elemC0 i v => s.setC0 i v

/-- Whether a LOAD writes the control register; only such a LOAD is allowed while `READY = 1` (R73). -/
def isControl : LoadTarget → Bool
  | .control _ => true
  | .scalar _ _ => false
  | .elemW _ _ => false
  | .elemS _ _ => false
  | .elemC1 _ _ => false
  | .elemC0 _ _ => false

/-- One LOAD transaction (R73): the supported configuration (U15), its form, V7, its effect (the order of the tests: log 11). -/
def execLoad (space : BitVec 3) (index data : Word) (s : State) : Host.Outcome State Fault Refusal :=
  if configOk s.cfg = false then .refused .unsupportedConfig
  else match decodeLoad s.cfg space index data with
    | .error r => .refused r
    | .ok t =>
      if s.ready = true ∧ isControl t = false then .refused .loadWhileReady
      else .next (applyLoad s t)

end Sys2Proof.Machine
end

