-- ==== Sys2Proof/Machine/Serve.lean ====
section
/-! DEFINITION. Serving one transaction that has arrived: a command word is decoded and executed, a LOAD is applied, a reset event resets (30_encoding.md R84, R87, R88; 20_memory.md R73; 70_reset_and_hazards.md R215). -/

namespace Sys2Proof.Machine

/-- The refusal of a reserved command word (30_encoding.md R87, R88). -/
def refusalOf : DecodeError → Refusal
  | .reservedOp => .reservedOp
  | .reservedAccessB => .reservedAccessB

/-- A word on the command port: execute the command it encodes, refuse a reserved word (R84). -/
def execCommand (word : CommandWord) (s : State) : Host.Outcome State Fault Refusal :=
  match decode word with
  | .ok i => exec i s
  | .error e => .refused (refusalOf e)

/-- Serve one transaction. -/
def serve (t : Transaction) (s : State) : Host.Outcome State Fault Refusal :=
  match t with
  | .command word => execCommand word s
  | .load space index data => execLoad space index data s
  | .reset => .next s.resetEvent

/-- Present a command word to the block ahead of everything that is waiting. -/
def State.presentCommand (s : State) (word : CommandWord) : State := { s with pending := .command word :: s.pending }

end Sys2Proof.Machine
end

