-- ==== Sys2Proof/Machine/Step.lean ====
section
/-! DEFINITION. step: take the oldest waiting transaction and serve it (10_state.md R41; 20_memory.md R68; log 6). -/

namespace Sys2Proof.Machine

/-- One step: the oldest transaction in `pending` is taken and served; with nothing waiting the block stays as it is. -/
def step (s : State) : Host.Outcome State Fault Refusal :=
  match s.pending with
  | [] => .next s
  | t :: _ => serve t s.drop

/-- `s` with the command of an opcode-table word presented on the command port, to be served by the very next step (log 13). -/
def State.withFetchWord (s : State) (nbits w : Nat) : State := s.presentCommand (tableWord nbits w)

end Sys2Proof.Machine
end

