-- ==== Sys2Proof/Machine/Driver.lean ====
section
/-! DEFINITION. The assembler syntax: the driver's one-line text form of a command (30_encoding.md R90, R91), and the decimal reply (R92). -/

namespace Sys2Proof.Machine

/-- A decimal digit. -/
def digitOf (c : Char) : Option Nat :=
  if '0'.toNat ≤ c.toNat ∧ c.toNat ≤ '9'.toNat then some (c.toNat - '0'.toNat) else none

/-- Read decimal digits, most significant first, onto the number read so far. -/
def readDigits : (acc : Nat) → List Char → Option Nat
  | acc, [] => some acc
  | acc, c :: cs =>
    match digitOf c with
    | some d => readDigits (acc * 10 + d) cs
    | none => none

/-- An unsigned decimal number that fits 64 bits (R90; log 24). -/
def readNumber (cs : List Char) : Option Word :=
  match cs with
  | [] => none
  | _ :: _ =>
    match readDigits 0 cs with
    | some n => if n < 2 ^ 64 then some (BitVec.ofNat 64 n) else none
    | none => none

/-- The words of a line: maximal runs of characters that are not spaces (R90). `cur` is the run under way. -/
def splitWords : (cur : List Char) → List Char → List (List Char)
  | [], [] => []
  | c :: cur, [] => [c :: cur]
  | cur, ch :: rest =>
    if ch = ' ' then
      match cur with
      | [] => splitWords [] rest
      | _ :: _ => cur :: splitWords [] rest
    else splitWords (cur ++ [ch]) rest

/-- `access <pos>` | `rank <0|1> <pos>` | `select <0|1> <k>` (R90). -/
def parseWords (ws : List (List Char)) : Option Instr :=
  match ws with
  | [op, p] => if op = "access".toList then (readNumber p).map .access else none
  | [op, b, p] =>
    if op = "rank".toList then
      if b = ['0'] then (readNumber p).map .rank0
      else if b = ['1'] then (readNumber p).map .rank1
      else none
    else if op = "select".toList then
      if b = ['0'] then (readNumber p).map .select0
      else if b = ['1'] then (readNumber p).map .select1
      else none
    else none
  | _ => none

/-- The command that a line of text stands for (R90). -/
def parseLine (line : List Char) : Option Instr := parseWords (splitWords [] line)

/-- Assembly: the command word of a line of text (R91). -/
def assemble (line : List Char) : Option CommandWord := (parseLine line).map encode

/-- The decimal digits of `n`, most significant first, ahead of `tail`; `fuel` bounds their number. -/
def digitsOnto : (fuel n : Nat) → List Char → List Char
  | 0, _, tail => tail
  | fuel + 1, n, tail =>
    if n < 10 then Char.ofNat ('0'.toNat + n) :: tail
    else digitsOnto fuel (n / 10) (Char.ofNat ('0'.toNat + n % 10) :: tail)

/-- A word in decimal, at most 20 digits: how a reply is printed (R92). -/
def decimal (v : Word) : List Char := digitsOnto 20 v.toNat []

/-- The text of a command (R90). -/
def driverText (i : Instr) : List Char :=
  match i with
  | .access p => "access ".toList ++ decimal p
  | .rank0 p => "rank 0 ".toList ++ decimal p
  | .rank1 p => "rank 1 ".toList ++ decimal p
  | .select0 k => "select 0 ".toList ++ decimal k
  | .select1 k => "select 1 ".toList ++ decimal k

end Sys2Proof.Machine
end

