-- ==== Sys2Proof/Machine/Loader.lean ====
section
/-! DEFINITION. The loader, host software that the spec describes: the construction of `W` from characters (70_reset_and_hazards.md R218), the metadata pass (R219 to R232) and the sequence of LOAD transactions (R217). -/

namespace Sys2Proof.Machine

/-- The accepted characters of the input in order: `'0'` and `'1'`; "Every character other than `'0'` or `'1'` is skipped" (R218). -/
def acceptBits : List Char → List Bool
  | [] => []
  | c :: cs => if c = '1' then true :: acceptBits cs else if c = '0' then false :: acceptBits cs else acceptBits cs

/-- Bits as a number, the first the least significant (R218; 00_scope.md R9). -/
def bitsToNat : List Bool → Nat
  | [] => 0
  | b :: bs => b.toNat + 2 * bitsToNat bs

/-- Word `v` of `W`: bit `j` is `B[64*v + j]`, zero padded (R218; 10_state.md R30). -/
def packWord (B : List Bool) (v : Nat) : Word := BitVec.ofNat 64 (bitsToNat ((B.drop (64 * v)).take 64))

/-- The variables of the pass (R219), with the entries committed so far. -/
structure Builder where
  oneCount : Nat
  zeroCount : Nat
  lastOnePos : Nat
  lastZeroPos : Nat
  /-- `superBlockOneCounter`. -/
  sbOnes : Nat
  /-- `L0BlockOneCounter`. -/
  l0Run : Nat
  m1 : Word
  m2 : Word
  l0Ones : Nat
  c1 : List CacheEntry
  c0 : List CacheEntry
  /-- `S` so far. -/
  entries : List Word
deriving DecidableEq, Repr

/-- All variables start at 0, the lists empty (R219). -/
def Builder.start : Builder :=
  { oneCount := 0, zeroCount := 0, lastOnePos := 0, lastZeroPos := 0, sbOnes := 0, l0Run := 0, m1 := 0, m2 := 0,
    l0Ones := 0, c1 := [], c0 := [], entries := [] }

/-- `valid(v)`: the bits of word `v` that are bits of `B` (R220). -/
def validBits (n v : Nat) : Nat := if v + 1 < wordsFor n then 64 else n - 64 * (wordsFor n - 1)

/-- `vmask(v)`: a one at each valid bit (R220). -/
def validMask (n v : Nat) : Word := BitVec.ofNat 64 (2 ^ validBits n v - 1)

/-- The 1-bits and 0-bits of one word, and the last positions: R221, R222, R223. -/
def countWord (n v : Nat) (w : Word) (u : Builder) : Builder :=
  let ones := popcount w
  let zeros := validBits n v - ones
  { u with
    oneCount := u.oneCount + ones
    zeroCount := u.zeroCount + zeros
    lastOnePos := if 0 < ones then ((clz? w).map (fun z => v * 64 + 63 - z)).getD u.lastOnePos else u.lastOnePos
    lastZeroPos := if 0 < zeros then ((clz? (~~~w &&& validMask n v)).map (fun z => v * 64 + 63 - z)).getD u.lastZeroPos else u.lastZeroPos }

/-- Append the superblock number of word `v` when a counter crosses a multiple of `D` (R226). -/
def appendOnCross (d before after v : Nat) (cache : List CacheEntry) : List CacheEntry :=
  if before / d < after / d then cache ++ [BitVec.ofNat 32 (v / 64)] else cache

/-- The counts and the cache appends of one word (R221 to R223, R226). -/
def countAndCache (c : Config) (n v : Nat) (w : Word) (u : Builder) : Builder :=
  let t := countWord n v w u
  { t with
    c1 := appendOnCross c.d u.oneCount t.oneCount v u.c1
    c0 := appendOnCross c.d u.zeroCount t.zeroCount v u.c0 }

/-- The running counters (R224). -/
def accumulate (w : Word) (u : Builder) : Builder :=
  { u with sbOnes := u.sbOnes + popcount w, l0Run := u.l0Run + popcount w }

/-- `FOLD(blk, val)`: or a value into field `b_blk` of the entry under construction (R225). -/
def foldField (blk val : Nat) (u : Builder) : Builder :=
  match blk with
  | 0 => { u with m1 := u.m1 ||| (BitVec.ofNat 64 val <<< 8) }
  | 1 => { u with
      m1 := u.m1 ||| (BitVec.ofNat 64 val >>> 4)
      m2 := u.m2 ||| ((BitVec.ofNat 64 val &&& 0xF#64) <<< 60) }
  | k + 2 => { u with m2 := u.m2 ||| (BitVec.ofNat 64 val <<< (12 * k)) }

/-- Fold at the end of a block, blocks 0 to 6 (R225). -/
def foldBlock (v : Nat) (u : Builder) : Builder :=
  if v % 8 = 7 ∧ v / 8 % 8 ≤ 6 then foldField (v / 8 % 8) u.sbOnes u else u

/-- Or the running count into the fields `7 - k, .., 6`. -/
def fillFields : (k : Nat) → Builder → Builder
  | 0, u => u
  | k + 1, u => fillFields k (foldField (6 - k) u.sbOnes u)

/-- Fill at the final word: every field `b_blk, .., b_6` (R227). -/
def fillLast (n v : Nat) (u : Builder) : Builder :=
  if v + 1 = wordsFor n then fillFields (7 - v / 8 % 8) u else u

/-- The L0 snapshot at the commit of superblock `sb` (R229; 90_conflicts.md C6). -/
def snapshot (c : Config) (n sb : Nat) (u : Builder) : Builder :=
  if sb + 1 = c.l0sb ∧ c.l0sb * 4096 ≤ n then { u with l0Ones := u.oneCount, l0Run := 0 } else u

/-- Commit of the entry at the end of a superblock or at the final word (R228, R229). -/
def commit (c : Config) (n v : Nat) (u : Builder) : Builder :=
  if v % 64 = 63 ∨ v + 1 = wordsFor n then
    let t := snapshot c n (v / 64) { u with entries := u.entries ++ [u.m1, u.m2] }
    { t with m1 := BitVec.ofNat 64 t.l0Run <<< 20, m2 := 0, sbOnes := 0 }
  else u

/-- The actions for word `v`, in the order of R232. -/
def passWord (c : Config) (n v : Nat) (w : Word) (u : Builder) : Builder :=
  commit c n v (fillLast n v (foldBlock v (accumulate w (countAndCache c n v w u))))

/-- The pass over the words `0, .., k-1` of `B` (R219, R232). -/
def passWords (c : Config) (B : List Bool) : (k : Nat) → Builder
  | 0 => Builder.start
  | k + 1 => passWord c B.length k (packWord B k) (passWords c B k)

/-- What the loader writes into the block (R231). -/
structure Built where
  n : Nat
  l0Ones : Nat
  oneCount : Nat
  zeroCount : Nat
  lastOnePos : Nat
  lastZeroPos : Nat
  w : List Word
  s : List Word
  c1 : List CacheEntry
  c0 : List CacheEntry
deriving DecidableEq, Repr

/-- The document's `buildHelpers` with the corrections of 90_conflicts.md C3 to C6: the pass, the guard entry (R230), the final values (R231). -/
def buildImage (c : Config) (B : List Bool) : Built :=
  let u := passWords c B (wordsFor B.length)
  { n := B.length, l0Ones := u.l0Ones, oneCount := u.oneCount, zeroCount := u.zeroCount,
    lastOnePos := u.lastOnePos, lastZeroPos := u.lastZeroPos
    w := (List.range (wordsFor B.length)).map (packWord B)
    s := u.entries ++ [u.m1, u.m2]
    c1 := u.c1, c0 := u.c0 }

/-- LOADs of consecutive elements of a memory, from index `i` on. -/
def loadsFrom (space : Space) : (i : Nat) → List Word → List Transaction
  | _, [] => []
  | i, v :: vs => .load (codeOfSpace space) (BitVec.ofNat 64 i) v :: loadsFrom space (i + 1) vs

/-- The LOAD of one register (10_state.md R24). -/
def loadReg (index v : Nat) : Transaction := .load (codeOfSpace .reg) (BitVec.ofNat 64 index) (BitVec.ofNat 64 v)

/-- The transactions that put a built image into the block, in the order of R217: `READY = 0`; zero to `S`; `W`; `S`, both caches and the registers; `N`; `READY = 1`. -/
def Built.loads (u : Built) : List Transaction :=
  [loadReg 6 0] ++ loadsFrom .s 0 (List.replicate u.s.length 0#64) ++ loadsFrom .w 0 u.w ++ loadsFrom .s 0 u.s ++
    loadsFrom .c1 0 (u.c1.map (BitVec.zeroExtend 64)) ++ loadsFrom .c0 0 (u.c0.map (BitVec.zeroExtend 64)) ++
    [loadReg 1 u.l0Ones, loadReg 2 u.oneCount, loadReg 3 u.zeroCount, loadReg 4 u.lastOnePos, loadReg 5 u.lastZeroPos,
      loadReg 0 u.n, loadReg 6 1]

/-- The loader's transactions for a bit sequence (R217). None for the empty sequence, which "must not be queried" (R218, R241), and for one the instance cannot hold (R217 (2)). -/
def loaderSequence (c : Config) (B : List Bool) : Option (List Transaction) :=
  if 1 ≤ B.length ∧ B.length ≤ min c.capN (nMax c) then some (buildImage c B).loads else none

/-- A memory that holds exactly the elements of a list, from index `i` on. -/
def memOf {k : Nat} : (i : Nat) → List (BitVec k) → Mem k
  | _, [] => []
  | i, v :: vs => (i, v) :: memOf (i + 1) vs

/-- The state `s` with a built image in it, and nothing else in the memories, and `READY = 1`: what the block holds once the loader is done (R217, R231). -/
def Built.install (u : Built) (s : State) : State :=
  { s with
    regN := BitVec.ofNat 64 u.n, l0Ones := BitVec.ofNat 64 u.l0Ones
    oneCount := BitVec.ofNat 64 u.oneCount, zeroCount := BitVec.ofNat 64 u.zeroCount
    lastOnePos := BitVec.ofNat 64 u.lastOnePos, lastZeroPos := BitVec.ofNat 64 u.lastZeroPos
    ready := true
    memW := memOf 0 u.w, memS := memOf 0 u.s, memC1 := memOf 0 u.c1, memC0 := memOf 0 u.c0 }

end Sys2Proof.Machine
end

