-- ==== Sys2Proof/Machine/Session.lean ====
section
/-! DEFINITION. A whole exchange with the block: transactions one after another, each with its own outcome; one that gets no result changes nothing, and the next is served as usual (60_exceptions.md R200; 20_memory.md R68). -/

namespace Sys2Proof.Machine

/-- What the outside sees of one transaction. -/
inductive Reply where
  /-- The response word of a command (30_encoding.md R86). -/
  | response (v : Word)
  /-- A LOAD or a reset event was accepted; there is no read-back (20_memory.md R73). -/
  | accepted
  /-- A violating command: its response carries no meaning (60_exceptions.md R200). -/
  | noResult (f : Fault)
  /-- A transaction that is not accepted. -/
  | refused (r : Refusal)
deriving DecidableEq, Repr

/-- The reply to a transaction served in state `s`, given the outcome: a next state with one more response has delivered that response. -/
def replyOf (s : State) : Host.Outcome State Fault Refusal → Reply
  | .next t =>
    match t.responses.drop s.responses.length with
    | [] => .accepted
    | v :: _ => .response v
  | .fault f => .noResult f
  | .refused r => .refused r

/-- The state after a transaction: a violating or refused one leaves the state as it was (60_exceptions.md R200; 30_encoding.md R87). -/
def stateAfter (s : State) : Host.Outcome State Fault Refusal → State
  | .next t => t
  | .fault _ => s
  | .refused _ => s

/-- Serve a list of transactions in order; the replies, and the state at the end. -/
def session (s : State) : List Transaction → List Reply × State
  | [] => ([], s)
  | t :: ts =>
    let o := serve t s
    let rest := session (stateAfter s o) ts
    (replyOf s o :: rest.1, rest.2)

end Sys2Proof.Machine
end

