-- ==== Sys2Proof/Machine/Image.lean ====
section
/-! DEFINITION. The image contract: what the state must hold for a bit sequence `B` before the queries have a defined result (10_state.md R29 to R37). It is a premise of the correctness laws and is tested by nothing (60_exceptions.md R196). -/

namespace Sys2Proof.Machine

/-- `ones(lo, hi)`: the number of `i` with `lo <= i < min(hi, N)` and `B[i] = 1` (10_state.md R29). -/
def ones (B : List Bool) (lo hi : Nat) : Nat := ((B.take hi).drop lo).count true

/-- The occurrences of `b` strictly before position `i` (00_scope.md R1). -/
def rankOf (B : List Bool) (b : Bool) (i : Nat) : Nat := (B.take i).count b

/-- Scan `B` from position `p` on for the `m`-th `b`, `m >= 1`. -/
def bitPosFrom (b : Bool) : List Bool → (m p : Nat) → Option Nat
  | [], _, _ => none
  | x :: xs, m, p =>
    if x = b then (if m = 1 then some p else bitPosFrom b xs (m - 1) (p + 1))
    else bitPosFrom b xs m (p + 1)

/-- `pos_b(m)`: the position of the `m`-th (1-indexed) bit of value `b`; none where there is no such bit (10_state.md R37). -/
def bitPos (B : List Bool) (b : Bool) (m : Nat) : Option Nat := bitPosFrom b B m 0

/-- Position `p` is the last position of value `b` (10_state.md R36). -/
def IsLast (B : List Bool) (b : Bool) (p : Nat) : Prop := B[p]? = some b ∧ ∀ q, p < q → B[q]? ≠ some b

/-- The state `s` is the image of the bit sequence `B` (10_state.md R29): rules R30 to R37 and `REG.N = N`, in a supported configuration. -/
structure IsImage (B : List Bool) (s : State) : Prop where
  /-- R6 to R8, R38. -/
  config : configOk s.cfg = true
  /-- R29: `1 <= N <= min(CAP_N, N_MAX)`. -/
  nonempty : 1 ≤ B.length
  fits : B.length ≤ min s.cfg.capN (nMax s.cfg)
  /-- R29: `REG.N = N`. -/
  regN : s.regN.toNat = B.length
  /-- R30. -/
  words : ∀ v < wordsFor B.length, ∀ j < 64, (s.elemW v).getLsbD j = (B[64 * v + j]?).getD false
  /-- R31, R33: `r(sb)` and the L0 adjustment add up to the 1-bits before the superblock, the guard entry included. -/
  fieldsR : ∀ sb < entriesFor B.length, (fieldR (s.elemS (2 * sb))).toNat + (s.l0Term sb).toNat = ones B 0 (sb * 4096)
  /-- R32, R33. -/
  fieldsB : ∀ sb < entriesFor B.length, ∀ k < 7, (fieldB (s.elemS (2 * sb)) (s.elemS (2 * sb + 1)) k).toNat = ones B (sb * 4096) (sb * 4096 + 512 * (k + 1))
  /-- R34. -/
  l0Ones : s.l0Ones.toNat = if s.cfg.l0sb * 4096 ≤ B.length then ones B 0 (s.cfg.l0sb * 4096) else 0
  /-- R35. -/
  oneCount : s.oneCount.toNat = ones B 0 B.length
  zeroCount : s.zeroCount.toNat = B.length - ones B 0 B.length
  /-- R36. -/
  lastOne : 0 < s.oneCount.toNat → IsLast B true s.lastOnePos.toNat
  lastZero : 0 < s.zeroCount.toNat → IsLast B false s.lastZeroPos.toNat
  /-- R37. -/
  caches : ∀ b, ∀ j < s.cacheLen b, ∃ p, bitPos B b ((j + 1) * s.cfg.d) = some p ∧ (s.elemC b j).toNat = p / 4096

/-- A valid image: the image of some bit sequence (10_state.md R29). -/
def ValidImage (s : State) : Prop := ∃ B, IsImage B s

end Sys2Proof.Machine
end

