-- ==== Sys2Proof/Safety.lean ====
section
/-! DEFINITION. What counts as a safe command and a well-formed state: the caller obligations (60_exceptions.md R191; 30_encoding.md R83) and the canonical form of the memories (log 5). -/

namespace Sys2Proof.Machine

/-- The operand obligation of a command: `i < N`, `i <= N`, `k <= total(b)` (30_encoding.md R83). -/
def operandInContract (i : Instr) (s : State) : Prop :=
  match i with
  | .access p => p < s.regN
  | .rank0 p => p ≤ s.regN
  | .rank1 p => p ≤ s.regN
  | .select0 k => k ≤ s.zeroCount
  | .select1 k => k ≤ s.oneCount

/-- A command is in contract: a ready valid image and an operand that meets its obligation (00_scope.md R17; 60_exceptions.md R191). -/
def InContract (i : Instr) (s : State) : Prop := s.ready = true ∧ ValidImage s ∧ operandInContract i s

/-- A command answers the word `v`: the next state is the same state with that one response delivered (10_state.md R39; 30_encoding.md R86). -/
def Answers (s : State) (i : Instr) (v : Word) : Prop := exec i s = .next (s.respond v)

/-- Two states agree on the six scalar registers (10_state.md R24). -/
def SameScalars (s t : State) : Prop :=
  t.regN = s.regN ∧ t.l0Ones = s.l0Ones ∧ t.oneCount = s.oneCount ∧ t.zeroCount = s.zeroCount ∧
  t.lastOnePos = s.lastOnePos ∧ t.lastZeroPos = s.lastZeroPos

/-- Two states agree on every element of every memory, read one by one (10_state.md R21 to R23). -/
def SameElements (s t : State) : Prop :=
  (∀ v, t.elemW v = s.elemW v) ∧ (∀ v, t.elemS v = s.elemS v) ∧ (∀ b j, t.elemC b j = s.elemC b j)

/-- Two states agree on what is outside the architectural state: the configuration and the model's own fields. -/
def SameOutside (s t : State) : Prop :=
  t.cfg = s.cfg ∧ t.epoch = s.epoch ∧ t.pending = s.pending ∧ t.responses = s.responses

/-- The block can hold what its registers describe: a ready, non-empty, supported state whose `N` fits the memories (00_scope.md R8). -/
def Queryable (s : State) : Prop :=
  s.ready = true ∧ s.regN ≠ 0#64 ∧ s.supported = true ∧ s.regN.toNat ≤ s.cfg.capN

/-- The state's form: each memory in canonical form and within its depth (log 5; 10_state.md R25). -/
def WellFormedState (s : State) : Prop :=
  (memWf s.memW = true ∧ memBelow (wDepth s.cfg) s.memW = true) ∧
  (memWf s.memS = true ∧ memBelow (sDepth s.cfg) s.memS = true) ∧
  (memWf s.memC1 = true ∧ memBelow (cacheDepth s.cfg) s.memC1 = true) ∧
  (memWf s.memC0 = true ∧ memBelow (cacheDepth s.cfg) s.memC0 = true)

/-- Two states hold the same architectural state and configuration: everything a command can read (10_state.md R20). -/
def SameImage (s t : State) : Prop :=
  s.cfg = t.cfg ∧ s.regN = t.regN ∧ s.l0Ones = t.l0Ones ∧ s.oneCount = t.oneCount ∧ s.zeroCount = t.zeroCount ∧
  s.lastOnePos = t.lastOnePos ∧ s.lastZeroPos = t.lastZeroPos ∧ s.ready = t.ready ∧
  s.memW = t.memW ∧ s.memS = t.memS ∧ s.memC1 = t.memC1 ∧ s.memC0 = t.memC0 ∧ s.epoch = t.epoch

end Sys2Proof.Machine
end

