-- ==== Sys2Proof/Certificates/Slice0/Obligations.lean ====
section
/-! DEFINITION. The statements for the provers. Each docstring names the rules it formalises. -/

open Sys2Proof Sys2Proof.Machine

/-! ### Encoding and the text form -/

/-- Command words of 95_test_vectors.md section 2.1, written out in hexadecimal, decode to the commands they stand for, and the reserved ones to none (30_encoding.md R82, R87, R88, R91). -/
def Obligations.TableWordsDecodeAsWritten : Prop :=
  decodeTableWord 72 0x00000000000000007 = some (.access 7) ∧
  decodeTableWord 72 0x0FFFFFFFFFFFFFFFF = some (.access 18446744073709551615) ∧
  decodeTableWord 72 0x20000000000000010 = some (.rank0 16) ∧
  decodeTableWord 72 0x30000000000000008 = some (.rank1 8) ∧
  decodeTableWord 72 0x3FFFFFFFFFFFFFFFF = some (.rank1 18446744073709551615) ∧
  decodeTableWord 72 0x40000000000000008 = some (.select0 8) ∧
  decodeTableWord 72 0x50000000000002710 = some (.select1 10000) ∧
  decodeTableWord 72 0x10000000000000005 = none ∧
  decodeTableWord 72 0x60000000000000000 = none ∧
  decodeTableWord 72 0x7FFFFFFFFFFFFFFFF = none

/-- Decoding inverts encoding on every command with every operand, and each command word has one meaning (30_encoding.md R82, R84). -/
def Obligations.DecodeInvertsEncode : Prop :=
  (∀ i : Instr, i.wf = true → decode (encode i) = .ok i) ∧
  (∀ (word : CommandWord) (i : Instr), decode word = .ok i → encode i = word)

/-- The decoder, on every one of the `2^67` words: the three high bits select the command or the refusal, the low 64 bits are the operand as they stand (30_encoding.md R82, R84). -/
def Obligations.DecoderIsTheOpcodeMap : Prop :=
  ∀ word : CommandWord,
    let arg := BitVec.ofNat 64 (word.toNat % 2 ^ 64)
    (word.toNat / 2 ^ 64 = 0 → decode word = .ok (.access arg)) ∧
    (word.toNat / 2 ^ 64 = 1 → decode word = .error .reservedAccessB) ∧
    (word.toNat / 2 ^ 64 = 2 → decode word = .ok (.rank0 arg)) ∧
    (word.toNat / 2 ^ 64 = 3 → decode word = .ok (.rank1 arg)) ∧
    (word.toNat / 2 ^ 64 = 4 → decode word = .ok (.select0 arg)) ∧
    (word.toNat / 2 ^ 64 = 5 → decode word = .ok (.select1 arg)) ∧
    (word.toNat / 2 ^ 64 = 6 → decode word = .error .reservedOp) ∧
    (word.toNat / 2 ^ 64 = 7 → decode word = .error .reservedOp) ∧
    word.toNat / 2 ^ 64 < 8 ∧
    (commandWf word = true ↔ ∃ i, decode word = .ok i)

/-- Every command, written in the driver's syntax with its operand in decimal, is read back as that command, and it assembles to the number R91 gives (30_encoding.md R90, R91). -/
def Obligations.DriverTextAssembles : Prop :=
  (∀ i : Instr, parseLine (driverText i) = some i ∧ assemble (driverText i) = some (encode i)) ∧
  (∀ p : Word, (encode (.access p)).toNat = 0 * 2 ^ 64 + p.toNat ∧ (encode (.rank0 p)).toNat = 2 * 2 ^ 64 + p.toNat ∧
    (encode (.rank1 p)).toNat = 3 * 2 ^ 64 + p.toNat ∧ (encode (.select0 p)).toNat = 4 * 2 ^ 64 + p.toNat ∧
    (encode (.select1 p)).toNat = 5 * 2 ^ 64 + p.toNat)

/-- A reserved word is refused: no response is produced and the state does not change (30_encoding.md R87, R88). -/
def Obligations.ReservedWordsAreRefused : Prop :=
  ∀ (s : State) (word : CommandWord),
    (word.toNat / 2 ^ 64 = 1 → serve (.command word) s = .refused .reservedAccessB ∧
      session s [.command word] = ([.refused .reservedAccessB], s)) ∧
    (word.toNat / 2 ^ 64 = 6 ∨ word.toNat / 2 ^ 64 = 7 → serve (.command word) s = .refused .reservedOp ∧
      session s [.command word] = ([.refused .reservedOp], s))

/-! ### Steps -/

/-- A step runs the decoded command: when the oldest waiting transaction is a word that decodes to `i`, the step is `exec i` on the state without that transaction (10_state.md R41; 20_memory.md R68); a reserved word is refused by the step (30_encoding.md R87, R88); a LOAD is served as R73 of 20_memory.md says, and a reset event gives the state after reset (70_reset_and_hazards.md R215). MODEL's choices: that something waits at all, and that with nothing waiting a step leaves the state as it is (log 6, DESIGN CHOICE); that commands, LOADs and reset events stand in one arrival list (log 16, DESIGN CHOICE); that a reset is a transaction and keeps what waits and what has left (log 12, DEDUCED). -/
def Obligations.StepRunsTheDecodedCommand : Prop :=
  ∀ (s : State) (rest : List Transaction),
    (∀ (word : CommandWord) (i : Instr), s.pending = .command word :: rest → decode word = .ok i →
      step s = exec i { s with pending := rest }) ∧
    (∀ (space : BitVec 3) (index data : Word), s.pending = .load space index data :: rest →
      step s = execLoad space index data { s with pending := rest }) ∧
    (s.pending = .reset :: rest → step s = .next ({ s with pending := rest } : State).resetEvent) ∧
    (∀ word : CommandWord, s.pending = .command word :: rest →
      (word.toNat / 2 ^ 64 = 1 → step s = .refused .reservedAccessB) ∧
      (word.toNat / 2 ^ 64 = 6 ∨ word.toNat / 2 ^ 64 = 7 → step s = .refused .reservedOp)) ∧
    (s.pending = [] → step s = .next s)

/-- The invariant of every step: the memories stay in canonical form and within their depths, and the configuration never changes (10_state.md R25; 00_scope.md R19; log 5). -/
def Obligations.StepKeepsTheStateWellFormed : Prop :=
  ∀ s t : State, WellFormedState s → step s = .next t → WellFormedState t ∧ t.cfg = s.cfg

/-- The state after reset is well formed, whatever the configuration (log 5). -/
def Obligations.ResetStateIsWellFormed : Prop :=
  WellFormedState State.reset ∧ ∀ c : Config, WellFormedState (State.resetWith c)

/-- While `READY = 1` a step that is not a reset event changes no element of `W`, `S`, `C1`, `C0`, no scalar register and no configuration (10_state.md R39; 20_memory.md R73). -/
def Obligations.ReadyStateIsFrozen : Prop :=
  ∀ s t : State, s.ready = true → s.pending.head? ≠ some .reset → step s = .next t →
    SameScalars s t ∧ SameElements s t ∧ t.memW = s.memW ∧ t.memS = s.memS ∧ t.memC1 = s.memC1 ∧ t.memC0 = s.memC0 ∧
    t.cfg = s.cfg ∧ t.epoch = s.epoch

/-! ### Reset and the shared contract tests -/

/-- Reset leaves `READY = 0` and the six scalar registers 0, and no element of a memory written, so that every element is a free value, in the state after reset and, with new free values, after a reset event; from any state the reset event does so in one step and keeps the configuration (10_state.md R43; 70_reset_and_hazards.md R215). MODEL's choices: the form of "unspecified", a free value per reset, memory and element (log 4, DESIGN CHOICE); that the reset event is a transaction and leaves alone the transactions that still wait and the responses already delivered, `t.pending = rest` and `t.responses = s.responses` (log 12, DEDUCED). -/
def Obligations.ResetClearsRegistersAndReady : Prop :=
  (∀ c : Config, let s := State.resetWith c
    s.ready = false ∧ (∀ r, s.scalar r = 0#64) ∧ s.cfg = c ∧
    (∀ v, s.elemW v = Config.freeElem s.epoch 1 v) ∧ (∀ v, s.elemS v = Config.freeElem s.epoch 2 v) ∧
    (∀ v, s.elemC true v = (Config.freeElem s.epoch 3 v).truncate 32) ∧
    (∀ v, s.elemC false v = (Config.freeElem s.epoch 4 v).truncate 32)) ∧
  State.reset = State.resetWith Config.default ∧
  (∀ (s : State) (rest : List Transaction), s.pending = .reset :: rest → ∃ t, step s = .next t ∧
    t.ready = false ∧ (∀ r, t.scalar r = 0#64) ∧ t.cfg = s.cfg ∧ t.pending = rest ∧ t.responses = s.responses ∧
    (∀ v, t.elemW v = Config.freeElem (s.epoch + 1) 1 v) ∧ (∀ v, t.elemS v = Config.freeElem (s.epoch + 1) 2 v) ∧
    (∀ v, t.elemC true v = (Config.freeElem (s.epoch + 1) 3 v).truncate 32) ∧
    (∀ v, t.elemC false v = (Config.freeElem (s.epoch + 1) 4 v).truncate 32))

/-- Every command while `READY = 0` is V1, in every state (70_reset_and_hazards.md R237; 60_exceptions.md R191). -/
def Obligations.CommandsBeforeReadyAreV1 : Prop :=
  ∀ (i : Instr) (s : State), s.ready = false →
    exec i s = .fault .notReady ∧ noteOf i s (exec i s) = some .v1NotReady

/-- With `N = 0` there are no words and one entry, and every command is V2, `select(0, b)` included (60_exceptions.md R195, R199). -/
def Obligations.CommandsOnTheEmptyImageAreV2 : Prop :=
  ∀ (i : Instr) (s : State), s.ready = true → s.regN = 0#64 →
    exec i s = .fault .empty ∧ noteOf i s (exec i s) = some .v2Empty ∧ s.nw = 0 ∧ guardFor s.regN.toNat = 0 ∧ s.nsb = 1

/-- Outside the supported configurations a command that is neither V1 nor V2, and every LOAD, is refused (93_implementation_defined.md U15; the place of the test is the model's, log 3). -/
def Obligations.UnsupportedConfigurationIsRefused : Prop :=
  (∀ (i : Instr) (s : State), s.ready = true → s.regN ≠ 0#64 → s.supported = false → exec i s = .refused .unsupportedConfig) ∧
  (∀ (space : BitVec 3) (index data : Word) (s : State), configOk s.cfg = false →
    execLoad space index data s = .refused .unsupportedConfig)

/-! ### What commands leave alone -/

/-- The frame of all five commands: a command that answers a next state delivers exactly one response word and changes nothing else, no register, no flag, no element of any memory, not `READY` (10_state.md R39, R42; 30_encoding.md R86; 20_memory.md R65, R66). -/
def Obligations.CommandsChangeNothingButTheResponse : Prop :=
  ∀ (i : Instr) (s t : State), exec i s = .next t →
    (∃ v, t.responses = s.responses ++ [v]) ∧ SameScalars s t ∧ SameElements s t ∧ t.ready = s.ready ∧
    t.cfg = s.cfg ∧ t.epoch = s.epoch ∧ t.pending = s.pending ∧
    t.memW = s.memW ∧ t.memS = s.memS ∧ t.memC1 = s.memC1 ∧ t.memC0 = s.memC0

/-- The outcome of a command is a function of the architectural state and the command alone: two states that hold the same image give the same response, fault or refusal, whatever arrived or left before (20_memory.md R68 (a)). -/
def Obligations.OutcomeDependsOnTheImageAlone : Prop :=
  ∀ (i : Instr) (s t : State), SameImage s t →
    (∀ v, exec i s = .next (s.respond v) ↔ exec i t = .next (t.respond v)) ∧
    (∀ f, exec i s = .fault f ↔ exec i t = .fault f) ∧
    (∀ r, exec i s = .refused r ↔ exec i t = .refused r)

/-- Commands do not interact: in a list of command words of any length, reserved and violating ones among them, the reply to each is the reply it gets on the state at the start, the replies come in order, and the image at the end is the image at the start (20_memory.md R68; 60_exceptions.md R200; 10_state.md R42). -/
def Obligations.CommandsDoNotInteract : Prop :=
  ∀ (s : State) (words : List CommandWord),
    (session s (words.map .command)).1 = words.map (fun w => replyOf s (serve (.command w) s)) ∧
    SameImage s (session s (words.map .command)).2

/-! ### ACCESS -/

/-- ACCESS: V1, V2, V3 in this order, else bit `i & 63` of word `W[i >> 6]`, zero-extended; and on a valid image of `B` the response is `B[i]` (40_access.md R101). -/
def Obligations.AccessAnswersTheBit : Prop :=
  ∀ (s : State) (i : Word),
    (s.ready = false → exec (.access i) s = .fault .notReady) ∧
    (s.ready = true → s.regN = 0#64 → exec (.access i) s = .fault .empty) ∧
    (s.ready = true → s.regN ≠ 0#64 → s.supported = true → s.regN ≤ i → exec (.access i) s = .fault .accessRange) ∧
    (Queryable s → i < s.regN →
      Answers s (.access i) (BitVec.ofNat 64 ((s.elemW (i.toNat / 64)).getLsbD (i.toNat % 64)).toNat)) ∧
    (∀ B, IsImage B s → s.ready = true → i < s.regN →
      ∃ b, B[i.toNat]? = some b ∧ Answers s (.access i) (BitVec.ofNat 64 b.toNat))

/-! ### RANK -/

/-- RANK1 and RANK0 complete on every operand in every ready, non-empty, supported state whose `N` fits the memories: the response is the sum of the five terms at the clamped position, and the clamped position less that sum (41_rank.md R126 to R129, R133). MODEL's choice: the statement takes in invalid images, where the sum and the difference are modulo 2^64 (log 8, DESIGN CHOICE; 00_scope.md R12 and 92_eei_decisions.md D21 fix no value there); on a valid image nothing wraps, which RankCountsTheOccurrences states. -/
def Obligations.RankAnswersTheSumOfFiveTerms : Prop :=
  ∀ (s : State) (i : Word), Queryable s →
    let i2 := if s.regN < i then s.regN - 1#64 else i
    Answers s (.rank1 i) (rank1Value s i2) ∧ Answers s (.rank0 i) (i2 - rank1Value s i2)

/-- Rank overshoot: a position above `N` gives the outcome of position `N - 1`, and where a value comes out it is noted as V5; at every position up to `N`, `i = N` among them, nothing is clamped, the command runs on the position as given, and nothing is noted (41_rank.md R127; 60_exceptions.md R192, R194). -/
def Obligations.RankOvershootIsClamped : Prop :=
  ∀ (s : State) (i : Word),
    (s.regN < i → exec (.rank1 i) s = exec (.rank1 (s.regN - 1#64)) s ∧ exec (.rank0 i) s = exec (.rank0 (s.regN - 1#64)) s) ∧
    (Queryable s → s.regN < i →
      noteOf (.rank1 i) s (exec (.rank1 i) s) = some .v5RankOvershoot ∧ noteOf (.rank0 i) s (exec (.rank0 i) s) = some .v5RankOvershoot) ∧
    (i ≤ s.regN → exec (.rank1 i) s = runQuery s (rank1Fn s i) ∧ exec (.rank0 i) s = runQuery s (rank0Fn s i)) ∧
    (Queryable s → i ≤ s.regN →
      noteOf (.rank1 i) s (exec (.rank1 i) s) = none ∧ noteOf (.rank0 i) s (exec (.rank0 i) s) = none)

/-- What RANK1 at `i = N` reads when `N` is a multiple of 4096, the guard entry's count alone, and when it is a multiple of 512 only, a block field of the last real entry; no word of `W` in either case (41_rank.md R132, first two shapes; RANK0 at `N` is RankAnswersTheSumOfFiveTerms). MODEL's choice: the response is given on invalid images too, where the sum is modulo 2^64 (log 8, DESIGN CHOICE; 00_scope.md R12 and 92_eei_decisions.md D21 fix no value there). -/
def Obligations.RankAtTheEndReadsMetadataOnly : Prop :=
  ∀ s : State, Queryable s →
    (s.regN.toNat % 4096 = 0 → Answers s (.rank1 s.regN)
      (fieldR (s.elemS (2 * guardFor s.regN.toNat)) + s.l0Term (guardFor s.regN.toNat))) ∧
    (s.regN.toNat % 512 = 0 → s.regN.toNat % 4096 ≠ 0 →
      let g := guardFor s.regN.toNat - 1
      Answers s (.rank1 s.regN)
        (fieldR (s.elemS (2 * g)) + s.l0Term g +
          fieldB (s.elemS (2 * g)) (s.elemS (2 * g + 1)) (s.regN.toNat / 512 % 8 - 1)))

/-- Correctness of rank: on a ready valid image of `B`, RANK1 and RANK0 at `i <= N` answer the number of 1-bits and 0-bits strictly before `i`, and at `i > N` those before `N - 1` (41_rank.md R131, and the correctness laws of R128, R129). -/
def Obligations.RankCountsTheOccurrences : Prop :=
  ∀ (B : List Bool) (s : State) (i : Word), IsImage B s → s.ready = true →
    (i ≤ s.regN → Answers s (.rank1 i) (BitVec.ofNat 64 (rankOf B true i.toNat)) ∧
      Answers s (.rank0 i) (BitVec.ofNat 64 (rankOf B false i.toNat)) ∧
      rankOf B true i.toNat = ones B 0 i.toNat ∧ rankOf B false i.toNat = i.toNat - ones B 0 i.toNat) ∧
    (s.regN < i → Answers s (.rank1 i) (BitVec.ofNat 64 (rankOf B true (B.length - 1))) ∧
      Answers s (.rank0 i) (BitVec.ofNat 64 (rankOf B false (B.length - 1))))

/-! ### SELECT -/

/-- `select(0, b)` answers 0 in every ready, non-empty, supported state, whatever the total is (60_exceptions.md R193; 42_select_locate.md R140). -/
def Obligations.SelectZeroIsTheSentinel : Prop :=
  ∀ s : State, s.ready = true → s.regN ≠ 0#64 → s.supported = true →
    Answers s (.select1 0#64) 0#64 ∧ Answers s (.select0 0#64) 0#64

/-- The front end of select, in the order of the tests: V1, V2, the sentinel, V4, the fast path, and the general path LOCATE, `k - CUM(T, b)`, SCAN (42_select_locate.md R140). -/
def Obligations.SelectTestsInOrder : Prop :=
  ∀ (s : State) (k : Word) (b : Bool),
    let i : Instr := if b then .select1 k else .select0 k
    let total := if b then s.oneCount else s.zeroCount
    (s.ready = false → exec i s = .fault .notReady) ∧
    (s.ready = true → s.regN = 0#64 → exec i s = .fault .empty) ∧
    (s.ready = true → s.regN ≠ 0#64 → s.supported = true →
      (k = 0#64 → Answers s i 0#64) ∧
      (k ≠ 0#64 → total < k → exec i s = .fault .selectRange) ∧
      (k ≠ 0#64 → k = total → Answers s i (if b then s.lastOnePos else s.lastZeroPos)) ∧
      (k ≠ 0#64 → k < total →
        (∀ t c p, locate s k b = .ok t → cum s t b = .ok c → scan s t (k - c) b = .ok p → Answers s i p) ∧
        (∀ f, locate s k b = .error f → exec i s = .fault f) ∧
        (∀ t f, locate s k b = .ok t → cum s t b = .error f → exec i s = .fault f) ∧
        (∀ t c f, locate s k b = .ok t → cum s t b = .ok c → scan s t (k - c) b = .error f → exec i s = .fault f)))

/-- Correctness of step A: on a valid image and for `1 <= k <= total(b)`, LOCATE answers the superblock of the `k`-th `b`-bit, which is a real superblock and the last entry whose cumulative count is below `k` (42_select_locate.md R148). -/
def Obligations.LocateFindsTheSuperblock : Prop :=
  ∀ (B : List Bool) (s : State) (k : Word) (b : Bool), IsImage B s → 1#64 ≤ k → k ≤ s.total b →
    ∃ p, bitPos B b k.toNat = some p ∧ locate s k b = .ok (p / 4096) ∧ p / 4096 ≤ guardFor B.length - 1 ∧
      (∃ c, cum s (p / 4096) b = .ok c ∧ c < k) ∧
      (∀ sb, p / 4096 < sb → sb < entriesFor B.length → ∃ c, cum s sb b = .ok c ∧ k ≤ c)

/-- The remaining count and the scanner: on a valid image and for `1 <= k <= total(b)`, the ordinal left inside the located superblock is in `1..4096`, and SCAN answers the position of the `k`-th `b`-bit, which is a position of `B` (42_select_locate.md R149; 43_select_scan.md R174). -/
def Obligations.ScanFindsTheBit : Prop :=
  ∀ (B : List Bool) (s : State) (k : Word) (b : Bool), IsImage B s → 1#64 ≤ k → k ≤ s.total b →
    ∃ t c p, locate s k b = .ok t ∧ cum s t b = .ok c ∧ 1 ≤ (k - c).toNat ∧ (k - c).toNat ≤ 4096 ∧
      bitPos B b k.toNat = some p ∧ scan s t (k - c) b = .ok (BitVec.ofNat 64 p) ∧ p < B.length

/-- Correctness of select: on a ready valid image, SELECT1 and SELECT0 with `1 <= k <= total(b)` answer the position of the `k`-th `b`-bit of `B` (the correctness laws of 42_select_locate.md R141, R142). -/
def Obligations.SelectFindsTheKthBit : Prop :=
  ∀ (B : List Bool) (s : State) (k : Word), IsImage B s → s.ready = true → 1#64 ≤ k →
    (k ≤ s.oneCount → ∃ p, bitPos B true k.toNat = some p ∧ p < B.length ∧ Answers s (.select1 k) (BitVec.ofNat 64 p)) ∧
    (k ≤ s.zeroCount → ∃ p, bitPos B false k.toNat = some p ∧ p < B.length ∧ Answers s (.select0 k) (BitVec.ofNat 64 p))

/-- The fast path cannot be observed: on a valid image the general path at `k = total(b) >= 1` answers the cached last position (42_select_locate.md R141, corner cases). -/
def Obligations.FastPathAgreesWithTheGeneralPath : Prop :=
  ∀ (B : List Bool) (s : State) (b : Bool), IsImage B s → 1#64 ≤ s.total b →
    selectGeneral s (s.total b) b = .ok (s.lastPos b)

/-- The binary search ends: on an interval shorter than `2^f`, `f` iterations are enough, so more fuel changes nothing; in every state the bracket that LOCATE searches is shorter than 2^64, so the 64 units of fuel the model gives are never used up, and LOCATE by the cache answers the same with any more (70_reset_and_hazards.md R244; 42_select_locate.md R150; fuel is the model's way to write the loop, log 17, DEDUCED). -/
def Obligations.BinarySearchNeedsNoMoreFuel : Prop :=
  (∀ (s : State) (k : Word) (b : Bool) (f extra lo hi : Nat), hi - lo < 2 ^ f →
    bsearch s k b (f + extra) lo hi = bsearch s k b f lo hi) ∧
  (∀ (s : State) (b : Bool) (q start stop : Nat),
    bracketStart s b q = .ok start → bracketEnd s b q = .ok stop → stop ≤ s.nsb - 1 ∧ stop - start < 2 ^ 64) ∧
  (∀ (s : State) (k : Word) (b : Bool) (extra : Nat),
    locateByCache s k b = (do
      let start ← bracketStart s b (k.toNat / s.cfg.d)
      let stop ← bracketEnd s b (k.toNat / s.cfg.d)
      bsearch s k b (64 + extra) start stop))

/-! ### The laws that tie the commands together -/

/-- Every command in contract completes: on a ready valid image, with an operand that meets its obligation, each of the five commands answers a response word and no violation occurs (60_exceptions.md R190, R191; 20_memory.md R67). -/
def Obligations.InContractCommandsComplete : Prop :=
  ∀ (i : Instr) (s : State), InContract i s → ∃ v, Answers s i v

/-- Rank and select are inverse on a valid image: `rank(select(k, b) + 1, b) = k`, and `select(rank(i, b) + 1, b) = i` where `B[i] = b` (43_select_scan.md R174; 95_test_vectors.md section 1.2, invariants 3 and 4), and `select` is strictly increasing (invariant 5). -/
def Obligations.RankAndSelectAreInverse : Prop :=
  ∀ (B : List Bool) (s : State), IsImage B s → s.ready = true →
    (∀ k, 1#64 ≤ k → k ≤ s.oneCount → ∃ p, Answers s (.select1 k) p ∧ Answers s (.rank1 (p + 1#64)) k) ∧
    (∀ k, 1#64 ≤ k → k ≤ s.zeroCount → ∃ p, Answers s (.select0 k) p ∧ Answers s (.rank0 (p + 1#64)) k) ∧
    (∀ i : Word, B[i.toNat]? = some true → ∃ r, Answers s (.rank1 i) r ∧ Answers s (.select1 (r + 1#64)) i) ∧
    (∀ i : Word, B[i.toNat]? = some false → ∃ r, Answers s (.rank0 i) r ∧ Answers s (.select0 (r + 1#64)) i) ∧
    (∀ k, 1#64 ≤ k → k < s.oneCount → ∃ p q, Answers s (.select1 k) p ∧ Answers s (.select1 (k + 1#64)) q ∧ p < q) ∧
    (∀ k, 1#64 ≤ k → k < s.zeroCount → ∃ p q, Answers s (.select0 k) p ∧ Answers s (.select0 (k + 1#64)) q ∧ p < q)

/-- `rank(i, 0) + rank(i, 1) = i` for `i <= N` (41_rank.md R129, R131; 95_test_vectors.md section 1.2, invariant 1), in every state the block can be queried in. The spec gives the law on a valid image; MODEL's choice: it holds on an invalid image too, because differences and sums are modulo 2^64 there (log 8, DESIGN CHOICE; 00_scope.md R12 and 92_eei_decisions.md D21 fix no value there). -/
def Obligations.RanksAddUpToThePosition : Prop :=
  ∀ (s : State) (i : Word), Queryable s → i ≤ s.regN →
    ∃ r0 r1, Answers s (.rank0 i) r0 ∧ Answers s (.rank1 i) r1 ∧ r0 + r1 = i

/-- On a ready valid image `access(i) = rank(i+1, 1) − rank(i, 1)` for `i < N`; and the round trip: the bits of a string, loaded into any supported block, come back through ACCESS in order (40_access.md R106). MODEL's choices in the round trip: the loader's transactions come in one fixed order (log 22, DESIGN CHOICE), on the arrival list that LOADs share with commands (log 16, DESIGN CHOICE). -/
def Obligations.AccessIsTheRankDifferenceAndReadsBack : Prop :=
  (∀ (B : List Bool) (s : State) (i : Word), IsImage B s → s.ready = true → i < s.regN →
    ∃ a r q, Answers s (.access i) a ∧ Answers s (.rank1 i) r ∧ Answers s (.rank1 (i + 1#64)) q ∧ a = q - r ∧ r ≤ q) ∧
  (∀ (s : State) (chars : List Char) (seq rest : List Transaction), configOk s.cfg = true →
    loaderSequence s.cfg (acceptBits chars) = some seq → s.pending = seq ++ rest →
    ∃ t, Host.Core.run Sys2Proof.core seq.length s = .next t ∧
    ∀ i b, (acceptBits chars)[i]? = some b → Answers t (.access (BitVec.ofNat 64 i)) (BitVec.ofNat 64 b.toNat))

/-! ### Metadata and the bit primitives -/

/-- What `pos_b(m)` is: the position of a `b` with exactly `m - 1` more before it; there is one for every `1 <= m <= total(b)` and for no other `m` (10_state.md R37, the notation). -/
def Obligations.BitPosIsTheMthOccurrence : Prop :=
  ∀ (B : List Bool) (b : Bool) (m : Nat),
    (∀ p, bitPos B b m = some p ↔ 1 ≤ m ∧ B[p]? = some b ∧ rankOf B b p = m - 1) ∧
    ((∃ p, bitPos B b m = some p) ↔ 1 ≤ m ∧ m ≤ B.count b)

/-- The entry encoding is a bijection between pairs of 64-bit words and tuples of a 44-bit count and seven 12-bit counts (40_access.md R105; 10_state.md R27). -/
def Obligations.EntryEncodingIsABijection : Prop :=
  (∀ (r : Nat) (b : Nat → Nat), r < 2 ^ 44 → (∀ k < 7, b k < 2 ^ 12) →
    (fieldR (entryM1 r b)).toNat = r ∧ ∀ k < 7, (fieldB (entryM1 r b) (entryM2 b) k).toNat = b k) ∧
  (∀ m1 m2 : Word, (fieldR m1).toNat < 2 ^ 44 ∧ (∀ k < 7, (fieldB m1 m2 k).toNat < 2 ^ 12) ∧
    entryM1 (fieldR m1).toNat (fun k => (fieldB m1 m2 k).toNat) = m1 ∧
    entryM2 (fun k => (fieldB m1 m2 k).toNat) = m2)

/-- The block fields of a valid image: each counts a prefix of the next, at most 512 more, and `b_k <= 512*(k+1) <= 3584` (10_state.md R28). -/
def Obligations.BlockFieldsOfAValidImage : Prop :=
  ∀ (B : List Bool) (s : State) (sb : Nat), IsImage B s → sb < entriesFor B.length →
    let field := fun k => (fieldB (s.elemS (2 * sb)) (s.elemS (2 * sb + 1)) k).toNat
    (∀ k < 7, field k ≤ 512 * (k + 1) ∧ field k ≤ 3584) ∧
    (∀ k < 6, field k ≤ field (k + 1) ∧ field (k + 1) - field k ≤ 512)

/-- The cumulative counts of a valid image: exact before every entry, non-decreasing for both bit values, zero at entry 0, the totals at the guard entry, and the exact 0-count before a real superblock (10_state.md R44). -/
def Obligations.CumulativeCountsOfAValidImage : Prop :=
  ∀ (B : List Bool) (s : State), IsImage B s →
    (∀ sb < entriesFor B.length, ∃ c, cum1 s sb = .ok c ∧ c.toNat = ones B 0 (sb * 4096)) ∧
    (∀ b sb, sb + 1 < entriesFor B.length → ∃ c d, cum s sb b = .ok c ∧ cum s (sb + 1) b = .ok d ∧ c ≤ d) ∧
    cum s 0 true = .ok 0#64 ∧ cum s 0 false = .ok 0#64 ∧
    cum s (guardFor B.length) true = .ok s.oneCount ∧
    (∃ c, cum s (guardFor B.length) false = .ok c ∧ c.toNat = guardFor B.length * 4096 - s.oneCount.toNat ∧ s.zeroCount ≤ c) ∧
    (∀ sb < guardFor B.length, ∃ c, cum s sb false = .ok c ∧ c.toNat = rankOf B false (sb * 4096))

/-- COORD splits a position into parts that put it together again; POS is its inverse and the concatenation of the parts (41_rank.md R120; 43_select_scan.md R172). -/
def Obligations.CoordinatesAndPositionsAreInverse : Prop :=
  (∀ i : Word, let c := coord i
    c.blk < 8 ∧ c.word < 8 ∧ c.bit < 64 ∧ i.toNat = c.sb * 4096 + c.blk * 512 + c.word * 64 + c.bit ∧
    blockBase c.sb c.blk + c.word = i.toNat / 64 ∧ posOf c.sb c.blk c.word c.bit = i) ∧
  (∀ t blk w j, t < 2 ^ 52 → blk < 8 → w < 8 → j < 64 →
    (posOf t blk w j).toNat = t * 4096 + blk * 512 + w * 64 + j ∧
    coord (posOf t blk w j) = { sb := t, blk := blk, word := w, bit := j } ∧
    posOf t blk w j = (BitVec.ofNat 52 t ++ BitVec.ofNat 3 blk ++ BitVec.ofNat 3 w ++ BitVec.ofNat 6 j : BitVec (52 + 3 + 3 + 6)))

/-- The mask of PARTIAL has exactly the low `bit` bits set, so the masked popcount counts the 1-bits below `bit` (41_rank.md R125). -/
def Obligations.MaskedPopcountCountsTheLowBits : Prop :=
  ∀ (x : Word) (bit : Nat), bit < 64 → popcount (x &&& ((1#64 <<< bit) - 1#64)) = popcountBelow x bit

/-- BITSEL answers the one index `j` with `x[j] = 1` and `r - 1` set bits below it, for `1 <= r <= popcount(x)`, and 0 for `r = 0` (43_select_scan.md R171). MODEL's choice: for `r > popcount(x)`, where R171 says that BITSEL is not defined, `bitSel` answers none (log 18, DESIGN CHOICE). -/
def Obligations.BitSelIsTheRthSetBit : Prop :=
  ∀ (x : Word) (r : Nat), (r = 0 → bitSel x r = some 0) ∧
    (1 ≤ r → r ≤ popcount x → ∃ j, bitSel x r = some j ∧ j < 64 ∧ x.getLsbD j = true ∧
      popcount (x &&& ((1#64 <<< j) - 1#64)) = r - 1 ∧
      ∀ j' < 64, x.getLsbD j' = true → popcount (x &&& ((1#64 <<< j') - 1#64)) = r - 1 → j' = j) ∧
    (popcount x < r → bitSel x r = none)

/-- The source's reference procedure answers 0 for `r = 0`; for `1 <= r <= popcount(x)` it ends within 64 iterations with the index of the `r`-th set bit, which is BITSEL; with fewer than `r` set bits its loop ends after no number of iterations (43_select_scan.md R170). -/
def Obligations.ReferenceLoopComputesBitSel : Prop :=
  (∀ x : Word, referenceSelect x 0 = some 0) ∧
  (∀ (x : Word) (r : Nat), 1 ≤ r → r ≤ popcount x → ∃ j, referenceSelect x r = some j ∧ bitSel x r = some j ∧ j < 64 ∧
    x.getLsbD j = true ∧ popcountBelow x j = r - 1) ∧
  (∀ (x : Word) (r fuel : Nat), popcount x < r → referenceLoop fuel r x 0 = none)

/-- BLKSEL answers the smallest block whose count reaches `rem`, block 7 if none does, and for non-decreasing counts it is the number of blocks whose count is below `rem` (43_select_scan.md R167). -/
def Obligations.BlkSelIsTheFirstBlockReached : Prop :=
  ∀ (m1 m2 rem : Word) (b : Bool),
    let j := blkSel m1 m2 rem b
    j ≤ 7 ∧ (∀ i < j, blkCnt m1 m2 i b < rem) ∧ (j < 7 → rem ≤ blkCnt m1 m2 j b) ∧
    ((∀ i < 6, blkCnt m1 m2 i b ≤ blkCnt m1 m2 (i + 1) b) →
      j = ((List.range 7).filter (fun i => decide (blkCnt m1 m2 i b < rem))).length)

/-! ### The load port -/

/-- A LOAD to `W`, `S`, `C1` or `C0` while `READY = 0`, within the depth and with the must-be-zero bits zero, writes that one element and nothing else (20_memory.md R73). -/
def Obligations.LoadWritesOneElement : Prop :=
  ∀ (s : State) (index data : Word), configOk s.cfg = true → s.ready = false →
    (index.toNat < wDepth s.cfg → ∃ t, execLoad 1 index data s = .next t ∧
      (∀ j, t.elemW j = if j = index.toNat then data else s.elemW j) ∧ (∀ j, t.elemS j = s.elemS j) ∧
      (∀ b j, t.elemC b j = s.elemC b j) ∧ SameScalars s t ∧ t.ready = s.ready ∧ SameOutside s t) ∧
    (index.toNat < sDepth s.cfg → ∃ t, execLoad 2 index data s = .next t ∧
      (∀ j, t.elemS j = if j = index.toNat then data else s.elemS j) ∧ (∀ j, t.elemW j = s.elemW j) ∧
      (∀ b j, t.elemC b j = s.elemC b j) ∧ SameScalars s t ∧ t.ready = s.ready ∧ SameOutside s t) ∧
    (index.toNat < cacheDepth s.cfg → data.toNat < 2 ^ 32 → ∃ t, execLoad 3 index data s = .next t ∧
      (∀ b j, (t.elemC b j).toNat = if b = true ∧ j = index.toNat then data.toNat else (s.elemC b j).toNat) ∧
      (∀ j, t.elemW j = s.elemW j) ∧ (∀ j, t.elemS j = s.elemS j) ∧ SameScalars s t ∧ t.ready = s.ready ∧ SameOutside s t) ∧
    (index.toNat < cacheDepth s.cfg → data.toNat < 2 ^ 32 → ∃ t, execLoad 4 index data s = .next t ∧
      (∀ b j, (t.elemC b j).toNat = if b = false ∧ j = index.toNat then data.toNat else (s.elemC b j).toNat) ∧
      (∀ j, t.elemW j = s.elemW j) ∧ (∀ j, t.elemS j = s.elemS j) ∧ SameScalars s t ∧ t.ready = s.ready ∧ SameOutside s t)

/-- A LOAD to a register index 0 to 5 while `READY = 0` writes that scalar register and nothing else: 0 `N`, 1 `L0Ones`, 2 `oneCount`, 3 `zeroCount`, 4 `lastOnePos`, 5 `lastZeroPos` (20_memory.md R73; 10_state.md R24). -/
def Obligations.LoadWritesOneRegister : Prop :=
  ∀ (s : State) (data : Word) (index : Nat) (r : ScalarReg), configOk s.cfg = true → s.ready = false →
    (index, r) ∈ [(0, ScalarReg.n), (1, .l0Ones), (2, .oneCount), (3, .zeroCount), (4, .lastOnePos), (5, .lastZeroPos)] →
    ∃ t, execLoad 0 (BitVec.ofNat 64 index) data s = .next t ∧ t.scalar r = data ∧ (∀ q, q ≠ r → t.scalar q = s.scalar q) ∧
      SameElements s t ∧ t.ready = s.ready ∧ SameOutside s t

/-- A LOAD of 0 or 1 to the control register sets `READY` to it, at any time, and changes no other state: clearing `READY` leaves the old image in the memories (70_reset_and_hazards.md R216; 20_memory.md R73). -/
def Obligations.ControlLoadSetsReadyAlone : Prop :=
  ∀ (s : State) (v : Bool), configOk s.cfg = true →
    ∃ t, execLoad 0 6 (if v then 1 else 0) s = .next t ∧ t.ready = v ∧ SameScalars s t ∧ SameElements s t ∧ SameOutside s t ∧
      t.memW = s.memW ∧ t.memS = s.memS ∧ t.memC1 = s.memC1 ∧ t.memC0 = s.memC0

/-- Which LOADs are accepted, in a supported configuration: an ill-formed one is refused whatever `READY` is; a well-formed one is refused as V7 exactly when `READY = 1` and it is not a LOAD to the control register (20_memory.md R73; 60_exceptions.md R191 V7; 70_reset_and_hazards.md R238). MODEL's choice: a LOAD that is ill-formed and comes while `READY = 1` is refused for its form and not as V7, since the spec ranks neither refusal (log 11, DESIGN CHOICE). -/
def Obligations.LoadIsAcceptedOrRefusedByForm : Prop :=
  ∀ (s : State) (space : BitVec 3) (index data : Word), configOk s.cfg = true →
    (loadWf s.cfg space index data = false → ∃ r, execLoad space index data s = .refused r ∧ r ≠ .loadWhileReady) ∧
    (loadWf s.cfg space index data = true →
      (s.ready = true → ¬ (space = 0 ∧ index = 6) → execLoad space index data s = .refused .loadWhileReady) ∧
      (s.ready = false ∨ (space = 0 ∧ index = 6) → ∃ t, execLoad space index data s = .next t))

/-! ### The loader -/

/-- The construction of `W`: the accepted characters are the `'0'` and `'1'` of the input in order, `N` is their number, bit `j` of word `v` is `B[64*v + j]`, zero past the end (70_reset_and_hazards.md R218). MODEL's choice: for an input with no bit, which must not be queried (R218) and for which READY should not be set (R241), the loader has no sequence of transactions (log 22, DESIGN CHOICE). -/
def Obligations.PackedWordsHoldTheBits : Prop :=
  (∀ chars : List Char, acceptBits chars = (chars.filter (fun c => c = '0' || c = '1')).map (fun c => decide (c = '1'))) ∧
  (∀ (B : List Bool) (v j : Nat), j < 64 → (packWord B v).getLsbD j = (B[64 * v + j]?).getD false) ∧
  (∀ (c : Config) (B : List Bool), (buildImage c B).n = B.length ∧ (buildImage c B).w = (List.range (wordsFor B.length)).map (packWord B)) ∧
  (∀ c : Config, loaderSequence c [] = none)

/-- The metadata pass produces exactly the image: in every supported configuration and for every `B` the instance can hold, the pass of R219 to R232 leaves the image of `B`, with last positions 0 where there is no such bit (70_reset_and_hazards.md R233). -/
def Obligations.BuildPassProducesTheImage : Prop :=
  ∀ (s : State) (B : List Bool), configOk s.cfg = true → 1 ≤ B.length → B.length ≤ min s.cfg.capN (nMax s.cfg) →
    let t := (buildImage s.cfg B).install s
    IsImage B t ∧ (t.oneCount = 0#64 → t.lastOnePos = 0#64) ∧ (t.zeroCount = 0#64 → t.lastZeroPos = 0#64) ∧
    (buildImage s.cfg B).w.length = wordsFor B.length ∧ (buildImage s.cfg B).s.length = 2 * entriesFor B.length

/-- The loader sequence makes a valid image: from any state of a supported block, ready or not, with the loader's transactions next in line, as many steps as there are transactions are all accepted and end in a ready state that holds the image of `B`, with no response delivered (70_reset_and_hazards.md R217; 20_memory.md R69). MODEL's choices: the fixed order of the transactions between the first and the last (log 22, DESIGN CHOICE), and the arrival list that LOADs share with commands (log 16, DESIGN CHOICE). -/
def Obligations.LoaderSequenceMakesTheBlockReady : Prop :=
  ∀ (s : State) (B : List Bool) (seq rest : List Transaction), configOk s.cfg = true →
    loaderSequence s.cfg B = some seq → s.pending = seq ++ rest →
    ∃ t, Host.Core.run Sys2Proof.core seq.length s = .next t ∧ t.ready = true ∧ IsImage B t ∧ t.pending = rest ∧
      t.responses = s.responses
end

