-- ==== Sys2Proof/Laws/Bits.lean ====
section
/-! SUPPORT. The small laws of the bit primitives and of the coordinates (00_scope.md R13; 41_rank.md R120). -/

namespace Sys2Proof.Machine

theorem popcountBelow_le (x : Word) (n : Nat) : popcountBelow x n ≤ n := by
  induction n with
  | zero => simp [popcountBelow]
  | succ n ih =>
    have h : (x.getLsbD n).toNat ≤ 1 := Bool.toNat_le _
    simp only [popcountBelow]
    omega

/-- `popcount(x)` is in `0..64` (00_scope.md R13). -/
theorem popcount_le (x : Word) : popcount x ≤ 64 := popcountBelow_le x 64

theorem popcountBelow_mono (x : Word) (m n : Nat) (h : m ≤ n) : popcountBelow x m ≤ popcountBelow x n := by
  induction h with
  | refl => exact Nat.le_refl _
  | step _ ih =>
    simp only [popcountBelow]
    omega

/-- `popcountBelow` looks at the bits below its bound only. -/
theorem popcountBelow_congr (x y : Word) (n : Nat) (h : ∀ j < n, x.getLsbD j = y.getLsbD j) : popcountBelow x n = popcountBelow y n := by
  induction n with
  | zero => rfl
  | succ n ih =>
    simp only [popcountBelow]
    rw [ih (fun j hj => h j (by omega)), h n (by omega)]

theorem coord_sb (i : Word) : (coord i).sb = i.toNat / 4096 := by
  simp [coord, BitVec.toNat_ushiftRight, Nat.shiftRight_eq_div_pow]

theorem and_seven (x : Nat) : x &&& 7 = x % 8 := Nat.and_two_pow_sub_one_eq_mod x 3

theorem and_sixtyThree (x : Nat) : x &&& 63 = x % 64 := Nat.and_two_pow_sub_one_eq_mod x 6

theorem coord_blk (i : Word) : (coord i).blk = i.toNat / 512 % 8 := by
  simp [coord, BitVec.toNat_ushiftRight, Nat.shiftRight_eq_div_pow, and_seven]

theorem coord_word (i : Word) : (coord i).word = i.toNat / 64 % 8 := by
  simp [coord, BitVec.toNat_ushiftRight, Nat.shiftRight_eq_div_pow, and_seven]

theorem coord_bit (i : Word) : (coord i).bit = i.toNat % 64 := by
  simp [coord, and_sixtyThree]

/-- The decrement of a positive number below `2^64`. -/
theorem dec64_pos (x : Nat) (h : 0 < x) (hx : x < 2 ^ 64) : dec64 x = x - 1 := by
  simp only [dec64, BitVec.toNat_sub, BitVec.toNat_ofNat]
  omega

end Sys2Proof.Machine
end

