-- ==== Sys2Proof/Laws/Memory.lean ====
section
/-! SUPPORT. The laws of one memory: a read after a write, and the canonical form kept (20_memory.md R60, R66). -/

namespace Sys2Proof.Machine

@[simp] theorem memGet_memSet_self {k : Nat} (m : Mem k) (i : Nat) (v : BitVec k) : memGet (memSet m i v) i = some v := by
  induction m with
  | nil => simp [memSet, memGet]
  | cons e m ih =>
    obtain ⟨a, x⟩ := e
    by_cases h1 : i < a
    · simp [memSet, memGet, h1]
    · by_cases h2 : i = a
      · simp [memSet, memGet, h2]
      · simp [memSet, memGet, h1, h2, Ne.symm h2, ih]

theorem memGet_memSet_ne {k : Nat} (m : Mem k) (i j : Nat) (v : BitVec k) (h : j ≠ i) : memGet (memSet m i v) j = memGet m j := by
  induction m with
  | nil => simp [memSet, memGet, Ne.symm h]
  | cons e m ih =>
    obtain ⟨a, x⟩ := e
    by_cases h1 : i < a
    · simp [memSet, memGet, h1, Ne.symm h]
    · by_cases h2 : i = a
      · subst h2
        simp [memSet, memGet, Ne.symm h]
      · simp [memSet, memGet, h1, h2, ih]

/-- Reading one index after a write to another or the same. -/
theorem memGet_memSet {k : Nat} (m : Mem k) (i j : Nat) (v : BitVec k) : memGet (memSet m i v) j = if j = i then some v else memGet m j := by
  split
  · next h => rw [h, memGet_memSet_self]
  · next h => exact memGet_memSet_ne m i j v h

theorem memRises_memSet {k : Nat} (lo : Nat) (m : Mem k) (i : Nat) (v : BitVec k) (hlo : lo < i) (h : memRises lo m = true) : memRises lo (memSet m i v) = true := by
  induction m generalizing lo with
  | nil => simp [memSet, memRises, hlo]
  | cons e m ih =>
    obtain ⟨a, x⟩ := e
    simp only [memRises, Bool.and_eq_true, decide_eq_true_eq] at h
    by_cases h1 : i < a
    · simp [memSet, memRises, h1, hlo, h.2]
    · by_cases h2 : i = a
      · subst h2
        simp [memSet, memRises, hlo, h.2]
      · simp only [memSet, h1, h2, if_false, memRises, Bool.and_eq_true, decide_eq_true_eq]
        exact ⟨h.1, ih a (by omega) h.2⟩

/-- A write keeps the canonical form. -/
theorem memWf_memSet {k : Nat} (m : Mem k) (i : Nat) (v : BitVec k) (h : memWf m = true) : memWf (memSet m i v) = true := by
  cases m with
  | nil => simp [memSet, memWf, memRises]
  | cons e m =>
    obtain ⟨a, x⟩ := e
    simp only [memWf] at h
    by_cases h1 : i < a
    · simp [memSet, memWf, memRises, h1, h]
    · by_cases h2 : i = a
      · subst h2
        simpa [memSet, memWf] using h
      · simp only [memSet, h1, h2, if_false, memWf]
        exact memRises_memSet a m i v (by omega) h

/-- A write within the depth keeps every index within the depth. -/
theorem memBelow_memSet {k : Nat} (depth : Nat) (m : Mem k) (i : Nat) (v : BitVec k) (hi : i < depth) (h : memBelow depth m = true) : memBelow depth (memSet m i v) = true := by
  induction m with
  | nil => simp [memSet, memBelow, hi]
  | cons e m ih =>
    obtain ⟨a, x⟩ := e
    simp only [memBelow, Bool.and_eq_true, decide_eq_true_eq] at h
    by_cases h1 : i < a
    · simp [memSet, memBelow, h1, hi, h]
    · by_cases h2 : i = a
      · subst h2
        simp [memSet, memBelow, hi, h]
      · simp [memSet, memBelow, h1, h2, h.1, ih h.2]

end Sys2Proof.Machine
end

