-- ==== Sys2Proof/Laws/State.lean ====
section
/-! SUPPORT. One lemma per field per update of the state, so that no proof unfolds a record update. -/

namespace Sys2Proof.Machine

/-! ### respond -/

@[simp] theorem respond_cfg (s : State) (v : Word) : (s.respond v).cfg = s.cfg := rfl
@[simp] theorem respond_regN (s : State) (v : Word) : (s.respond v).regN = s.regN := rfl
@[simp] theorem respond_l0Ones (s : State) (v : Word) : (s.respond v).l0Ones = s.l0Ones := rfl
@[simp] theorem respond_oneCount (s : State) (v : Word) : (s.respond v).oneCount = s.oneCount := rfl
@[simp] theorem respond_zeroCount (s : State) (v : Word) : (s.respond v).zeroCount = s.zeroCount := rfl
@[simp] theorem respond_lastOnePos (s : State) (v : Word) : (s.respond v).lastOnePos = s.lastOnePos := rfl
@[simp] theorem respond_lastZeroPos (s : State) (v : Word) : (s.respond v).lastZeroPos = s.lastZeroPos := rfl
@[simp] theorem respond_ready (s : State) (v : Word) : (s.respond v).ready = s.ready := rfl
@[simp] theorem respond_memW (s : State) (v : Word) : (s.respond v).memW = s.memW := rfl
@[simp] theorem respond_memS (s : State) (v : Word) : (s.respond v).memS = s.memS := rfl
@[simp] theorem respond_memC1 (s : State) (v : Word) : (s.respond v).memC1 = s.memC1 := rfl
@[simp] theorem respond_memC0 (s : State) (v : Word) : (s.respond v).memC0 = s.memC0 := rfl
@[simp] theorem respond_epoch (s : State) (v : Word) : (s.respond v).epoch = s.epoch := rfl
@[simp] theorem respond_pending (s : State) (v : Word) : (s.respond v).pending = s.pending := rfl
@[simp] theorem respond_responses (s : State) (v : Word) : (s.respond v).responses = s.responses ++ [v] := rfl

/-! ### drop -/

@[simp] theorem drop_cfg (s : State) : (s.drop).cfg = s.cfg := rfl
@[simp] theorem drop_regN (s : State) : (s.drop).regN = s.regN := rfl
@[simp] theorem drop_l0Ones (s : State) : (s.drop).l0Ones = s.l0Ones := rfl
@[simp] theorem drop_oneCount (s : State) : (s.drop).oneCount = s.oneCount := rfl
@[simp] theorem drop_zeroCount (s : State) : (s.drop).zeroCount = s.zeroCount := rfl
@[simp] theorem drop_lastOnePos (s : State) : (s.drop).lastOnePos = s.lastOnePos := rfl
@[simp] theorem drop_lastZeroPos (s : State) : (s.drop).lastZeroPos = s.lastZeroPos := rfl
@[simp] theorem drop_ready (s : State) : (s.drop).ready = s.ready := rfl
@[simp] theorem drop_memW (s : State) : (s.drop).memW = s.memW := rfl
@[simp] theorem drop_memS (s : State) : (s.drop).memS = s.memS := rfl
@[simp] theorem drop_memC1 (s : State) : (s.drop).memC1 = s.memC1 := rfl
@[simp] theorem drop_memC0 (s : State) : (s.drop).memC0 = s.memC0 := rfl
@[simp] theorem drop_epoch (s : State) : (s.drop).epoch = s.epoch := rfl
@[simp] theorem drop_pending (s : State) : (s.drop).pending = s.pending.tail := rfl
@[simp] theorem drop_responses (s : State) : (s.drop).responses = s.responses := rfl

/-! ### presentCommand -/

@[simp] theorem presentCommand_cfg (s : State) (word : CommandWord) : (s.presentCommand word).cfg = s.cfg := rfl
@[simp] theorem presentCommand_regN (s : State) (word : CommandWord) : (s.presentCommand word).regN = s.regN := rfl
@[simp] theorem presentCommand_l0Ones (s : State) (word : CommandWord) : (s.presentCommand word).l0Ones = s.l0Ones := rfl
@[simp] theorem presentCommand_oneCount (s : State) (word : CommandWord) : (s.presentCommand word).oneCount = s.oneCount := rfl
@[simp] theorem presentCommand_zeroCount (s : State) (word : CommandWord) : (s.presentCommand word).zeroCount = s.zeroCount := rfl
@[simp] theorem presentCommand_lastOnePos (s : State) (word : CommandWord) : (s.presentCommand word).lastOnePos = s.lastOnePos := rfl
@[simp] theorem presentCommand_lastZeroPos (s : State) (word : CommandWord) : (s.presentCommand word).lastZeroPos = s.lastZeroPos := rfl
@[simp] theorem presentCommand_ready (s : State) (word : CommandWord) : (s.presentCommand word).ready = s.ready := rfl
@[simp] theorem presentCommand_memW (s : State) (word : CommandWord) : (s.presentCommand word).memW = s.memW := rfl
@[simp] theorem presentCommand_memS (s : State) (word : CommandWord) : (s.presentCommand word).memS = s.memS := rfl
@[simp] theorem presentCommand_memC1 (s : State) (word : CommandWord) : (s.presentCommand word).memC1 = s.memC1 := rfl
@[simp] theorem presentCommand_memC0 (s : State) (word : CommandWord) : (s.presentCommand word).memC0 = s.memC0 := rfl
@[simp] theorem presentCommand_epoch (s : State) (word : CommandWord) : (s.presentCommand word).epoch = s.epoch := rfl
@[simp] theorem presentCommand_pending (s : State) (word : CommandWord) : (s.presentCommand word).pending = .command word :: s.pending := rfl
@[simp] theorem presentCommand_responses (s : State) (word : CommandWord) : (s.presentCommand word).responses = s.responses := rfl

/-! ### setReady -/

@[simp] theorem setReady_cfg (s : State) (v : Bool) : (s.setReady v).cfg = s.cfg := rfl
@[simp] theorem setReady_regN (s : State) (v : Bool) : (s.setReady v).regN = s.regN := rfl
@[simp] theorem setReady_l0Ones (s : State) (v : Bool) : (s.setReady v).l0Ones = s.l0Ones := rfl
@[simp] theorem setReady_oneCount (s : State) (v : Bool) : (s.setReady v).oneCount = s.oneCount := rfl
@[simp] theorem setReady_zeroCount (s : State) (v : Bool) : (s.setReady v).zeroCount = s.zeroCount := rfl
@[simp] theorem setReady_lastOnePos (s : State) (v : Bool) : (s.setReady v).lastOnePos = s.lastOnePos := rfl
@[simp] theorem setReady_lastZeroPos (s : State) (v : Bool) : (s.setReady v).lastZeroPos = s.lastZeroPos := rfl
@[simp] theorem setReady_ready (s : State) (v : Bool) : (s.setReady v).ready = v := rfl
@[simp] theorem setReady_memW (s : State) (v : Bool) : (s.setReady v).memW = s.memW := rfl
@[simp] theorem setReady_memS (s : State) (v : Bool) : (s.setReady v).memS = s.memS := rfl
@[simp] theorem setReady_memC1 (s : State) (v : Bool) : (s.setReady v).memC1 = s.memC1 := rfl
@[simp] theorem setReady_memC0 (s : State) (v : Bool) : (s.setReady v).memC0 = s.memC0 := rfl
@[simp] theorem setReady_epoch (s : State) (v : Bool) : (s.setReady v).epoch = s.epoch := rfl
@[simp] theorem setReady_pending (s : State) (v : Bool) : (s.setReady v).pending = s.pending := rfl
@[simp] theorem setReady_responses (s : State) (v : Bool) : (s.setReady v).responses = s.responses := rfl

/-! ### setW -/

@[simp] theorem setW_cfg (s : State) (i : Nat) (v : Word) : (s.setW i v).cfg = s.cfg := rfl
@[simp] theorem setW_regN (s : State) (i : Nat) (v : Word) : (s.setW i v).regN = s.regN := rfl
@[simp] theorem setW_l0Ones (s : State) (i : Nat) (v : Word) : (s.setW i v).l0Ones = s.l0Ones := rfl
@[simp] theorem setW_oneCount (s : State) (i : Nat) (v : Word) : (s.setW i v).oneCount = s.oneCount := rfl
@[simp] theorem setW_zeroCount (s : State) (i : Nat) (v : Word) : (s.setW i v).zeroCount = s.zeroCount := rfl
@[simp] theorem setW_lastOnePos (s : State) (i : Nat) (v : Word) : (s.setW i v).lastOnePos = s.lastOnePos := rfl
@[simp] theorem setW_lastZeroPos (s : State) (i : Nat) (v : Word) : (s.setW i v).lastZeroPos = s.lastZeroPos := rfl
@[simp] theorem setW_ready (s : State) (i : Nat) (v : Word) : (s.setW i v).ready = s.ready := rfl
@[simp] theorem setW_memW (s : State) (i : Nat) (v : Word) : (s.setW i v).memW = memSet s.memW i v := rfl
@[simp] theorem setW_memS (s : State) (i : Nat) (v : Word) : (s.setW i v).memS = s.memS := rfl
@[simp] theorem setW_memC1 (s : State) (i : Nat) (v : Word) : (s.setW i v).memC1 = s.memC1 := rfl
@[simp] theorem setW_memC0 (s : State) (i : Nat) (v : Word) : (s.setW i v).memC0 = s.memC0 := rfl
@[simp] theorem setW_epoch (s : State) (i : Nat) (v : Word) : (s.setW i v).epoch = s.epoch := rfl
@[simp] theorem setW_pending (s : State) (i : Nat) (v : Word) : (s.setW i v).pending = s.pending := rfl
@[simp] theorem setW_responses (s : State) (i : Nat) (v : Word) : (s.setW i v).responses = s.responses := rfl

/-! ### setS -/

@[simp] theorem setS_cfg (s : State) (i : Nat) (v : Word) : (s.setS i v).cfg = s.cfg := rfl
@[simp] theorem setS_regN (s : State) (i : Nat) (v : Word) : (s.setS i v).regN = s.regN := rfl
@[simp] theorem setS_l0Ones (s : State) (i : Nat) (v : Word) : (s.setS i v).l0Ones = s.l0Ones := rfl
@[simp] theorem setS_oneCount (s : State) (i : Nat) (v : Word) : (s.setS i v).oneCount = s.oneCount := rfl
@[simp] theorem setS_zeroCount (s : State) (i : Nat) (v : Word) : (s.setS i v).zeroCount = s.zeroCount := rfl
@[simp] theorem setS_lastOnePos (s : State) (i : Nat) (v : Word) : (s.setS i v).lastOnePos = s.lastOnePos := rfl
@[simp] theorem setS_lastZeroPos (s : State) (i : Nat) (v : Word) : (s.setS i v).lastZeroPos = s.lastZeroPos := rfl
@[simp] theorem setS_ready (s : State) (i : Nat) (v : Word) : (s.setS i v).ready = s.ready := rfl
@[simp] theorem setS_memW (s : State) (i : Nat) (v : Word) : (s.setS i v).memW = s.memW := rfl
@[simp] theorem setS_memS (s : State) (i : Nat) (v : Word) : (s.setS i v).memS = memSet s.memS i v := rfl
@[simp] theorem setS_memC1 (s : State) (i : Nat) (v : Word) : (s.setS i v).memC1 = s.memC1 := rfl
@[simp] theorem setS_memC0 (s : State) (i : Nat) (v : Word) : (s.setS i v).memC0 = s.memC0 := rfl
@[simp] theorem setS_epoch (s : State) (i : Nat) (v : Word) : (s.setS i v).epoch = s.epoch := rfl
@[simp] theorem setS_pending (s : State) (i : Nat) (v : Word) : (s.setS i v).pending = s.pending := rfl
@[simp] theorem setS_responses (s : State) (i : Nat) (v : Word) : (s.setS i v).responses = s.responses := rfl

/-! ### setC1 -/

@[simp] theorem setC1_cfg (s : State) (i : Nat) (v : CacheEntry) : (s.setC1 i v).cfg = s.cfg := rfl
@[simp] theorem setC1_regN (s : State) (i : Nat) (v : CacheEntry) : (s.setC1 i v).regN = s.regN := rfl
@[simp] theorem setC1_l0Ones (s : State) (i : Nat) (v : CacheEntry) : (s.setC1 i v).l0Ones = s.l0Ones := rfl
@[simp] theorem setC1_oneCount (s : State) (i : Nat) (v : CacheEntry) : (s.setC1 i v).oneCount = s.oneCount := rfl
@[simp] theorem setC1_zeroCount (s : State) (i : Nat) (v : CacheEntry) : (s.setC1 i v).zeroCount = s.zeroCount := rfl
@[simp] theorem setC1_lastOnePos (s : State) (i : Nat) (v : CacheEntry) : (s.setC1 i v).lastOnePos = s.lastOnePos := rfl
@[simp] theorem setC1_lastZeroPos (s : State) (i : Nat) (v : CacheEntry) : (s.setC1 i v).lastZeroPos = s.lastZeroPos := rfl
@[simp] theorem setC1_ready (s : State) (i : Nat) (v : CacheEntry) : (s.setC1 i v).ready = s.ready := rfl
@[simp] theorem setC1_memW (s : State) (i : Nat) (v : CacheEntry) : (s.setC1 i v).memW = s.memW := rfl
@[simp] theorem setC1_memS (s : State) (i : Nat) (v : CacheEntry) : (s.setC1 i v).memS = s.memS := rfl
@[simp] theorem setC1_memC1 (s : State) (i : Nat) (v : CacheEntry) : (s.setC1 i v).memC1 = memSet s.memC1 i v := rfl
@[simp] theorem setC1_memC0 (s : State) (i : Nat) (v : CacheEntry) : (s.setC1 i v).memC0 = s.memC0 := rfl
@[simp] theorem setC1_epoch (s : State) (i : Nat) (v : CacheEntry) : (s.setC1 i v).epoch = s.epoch := rfl
@[simp] theorem setC1_pending (s : State) (i : Nat) (v : CacheEntry) : (s.setC1 i v).pending = s.pending := rfl
@[simp] theorem setC1_responses (s : State) (i : Nat) (v : CacheEntry) : (s.setC1 i v).responses = s.responses := rfl

/-! ### setC0 -/

@[simp] theorem setC0_cfg (s : State) (i : Nat) (v : CacheEntry) : (s.setC0 i v).cfg = s.cfg := rfl
@[simp] theorem setC0_regN (s : State) (i : Nat) (v : CacheEntry) : (s.setC0 i v).regN = s.regN := rfl
@[simp] theorem setC0_l0Ones (s : State) (i : Nat) (v : CacheEntry) : (s.setC0 i v).l0Ones = s.l0Ones := rfl
@[simp] theorem setC0_oneCount (s : State) (i : Nat) (v : CacheEntry) : (s.setC0 i v).oneCount = s.oneCount := rfl
@[simp] theorem setC0_zeroCount (s : State) (i : Nat) (v : CacheEntry) : (s.setC0 i v).zeroCount = s.zeroCount := rfl
@[simp] theorem setC0_lastOnePos (s : State) (i : Nat) (v : CacheEntry) : (s.setC0 i v).lastOnePos = s.lastOnePos := rfl
@[simp] theorem setC0_lastZeroPos (s : State) (i : Nat) (v : CacheEntry) : (s.setC0 i v).lastZeroPos = s.lastZeroPos := rfl
@[simp] theorem setC0_ready (s : State) (i : Nat) (v : CacheEntry) : (s.setC0 i v).ready = s.ready := rfl
@[simp] theorem setC0_memW (s : State) (i : Nat) (v : CacheEntry) : (s.setC0 i v).memW = s.memW := rfl
@[simp] theorem setC0_memS (s : State) (i : Nat) (v : CacheEntry) : (s.setC0 i v).memS = s.memS := rfl
@[simp] theorem setC0_memC1 (s : State) (i : Nat) (v : CacheEntry) : (s.setC0 i v).memC1 = s.memC1 := rfl
@[simp] theorem setC0_memC0 (s : State) (i : Nat) (v : CacheEntry) : (s.setC0 i v).memC0 = memSet s.memC0 i v := rfl
@[simp] theorem setC0_epoch (s : State) (i : Nat) (v : CacheEntry) : (s.setC0 i v).epoch = s.epoch := rfl
@[simp] theorem setC0_pending (s : State) (i : Nat) (v : CacheEntry) : (s.setC0 i v).pending = s.pending := rfl
@[simp] theorem setC0_responses (s : State) (i : Nat) (v : CacheEntry) : (s.setC0 i v).responses = s.responses := rfl

/-! ### resetEvent -/

@[simp] theorem resetEvent_cfg (s : State) : (s.resetEvent).cfg = s.cfg := rfl
@[simp] theorem resetEvent_regN (s : State) : (s.resetEvent).regN = 0#64 := rfl
@[simp] theorem resetEvent_l0Ones (s : State) : (s.resetEvent).l0Ones = 0#64 := rfl
@[simp] theorem resetEvent_oneCount (s : State) : (s.resetEvent).oneCount = 0#64 := rfl
@[simp] theorem resetEvent_zeroCount (s : State) : (s.resetEvent).zeroCount = 0#64 := rfl
@[simp] theorem resetEvent_lastOnePos (s : State) : (s.resetEvent).lastOnePos = 0#64 := rfl
@[simp] theorem resetEvent_lastZeroPos (s : State) : (s.resetEvent).lastZeroPos = 0#64 := rfl
@[simp] theorem resetEvent_ready (s : State) : (s.resetEvent).ready = false := rfl
@[simp] theorem resetEvent_memW (s : State) : (s.resetEvent).memW = [] := rfl
@[simp] theorem resetEvent_memS (s : State) : (s.resetEvent).memS = [] := rfl
@[simp] theorem resetEvent_memC1 (s : State) : (s.resetEvent).memC1 = [] := rfl
@[simp] theorem resetEvent_memC0 (s : State) : (s.resetEvent).memC0 = [] := rfl
@[simp] theorem resetEvent_epoch (s : State) : (s.resetEvent).epoch = s.epoch + 1 := rfl
@[simp] theorem resetEvent_pending (s : State) : (s.resetEvent).pending = s.pending := rfl
@[simp] theorem resetEvent_responses (s : State) : (s.resetEvent).responses = s.responses := rfl

/-! ### resetWith -/

@[simp] theorem resetWith_cfg (c : Config) : (State.resetWith c).cfg = c := rfl
@[simp] theorem resetWith_regN (c : Config) : (State.resetWith c).regN = 0#64 := rfl
@[simp] theorem resetWith_l0Ones (c : Config) : (State.resetWith c).l0Ones = 0#64 := rfl
@[simp] theorem resetWith_oneCount (c : Config) : (State.resetWith c).oneCount = 0#64 := rfl
@[simp] theorem resetWith_zeroCount (c : Config) : (State.resetWith c).zeroCount = 0#64 := rfl
@[simp] theorem resetWith_lastOnePos (c : Config) : (State.resetWith c).lastOnePos = 0#64 := rfl
@[simp] theorem resetWith_lastZeroPos (c : Config) : (State.resetWith c).lastZeroPos = 0#64 := rfl
@[simp] theorem resetWith_ready (c : Config) : (State.resetWith c).ready = false := rfl
@[simp] theorem resetWith_memW (c : Config) : (State.resetWith c).memW = [] := rfl
@[simp] theorem resetWith_memS (c : Config) : (State.resetWith c).memS = [] := rfl
@[simp] theorem resetWith_memC1 (c : Config) : (State.resetWith c).memC1 = [] := rfl
@[simp] theorem resetWith_memC0 (c : Config) : (State.resetWith c).memC0 = [] := rfl
@[simp] theorem resetWith_epoch (c : Config) : (State.resetWith c).epoch = 0 := rfl
@[simp] theorem resetWith_pending (c : Config) : (State.resetWith c).pending = [] := rfl
@[simp] theorem resetWith_responses (c : Config) : (State.resetWith c).responses = [] := rfl

/-! ### setScalar -/

@[simp] theorem setScalar_cfg (s : State) (r : ScalarReg) (v : Word) : (s.setScalar r v).cfg = s.cfg := by cases r <;> rfl
@[simp] theorem setScalar_ready (s : State) (r : ScalarReg) (v : Word) : (s.setScalar r v).ready = s.ready := by cases r <;> rfl
@[simp] theorem setScalar_memW (s : State) (r : ScalarReg) (v : Word) : (s.setScalar r v).memW = s.memW := by cases r <;> rfl
@[simp] theorem setScalar_memS (s : State) (r : ScalarReg) (v : Word) : (s.setScalar r v).memS = s.memS := by cases r <;> rfl
@[simp] theorem setScalar_memC1 (s : State) (r : ScalarReg) (v : Word) : (s.setScalar r v).memC1 = s.memC1 := by cases r <;> rfl
@[simp] theorem setScalar_memC0 (s : State) (r : ScalarReg) (v : Word) : (s.setScalar r v).memC0 = s.memC0 := by cases r <;> rfl
@[simp] theorem setScalar_epoch (s : State) (r : ScalarReg) (v : Word) : (s.setScalar r v).epoch = s.epoch := by cases r <;> rfl
@[simp] theorem setScalar_pending (s : State) (r : ScalarReg) (v : Word) : (s.setScalar r v).pending = s.pending := by cases r <;> rfl
@[simp] theorem setScalar_responses (s : State) (r : ScalarReg) (v : Word) : (s.setScalar r v).responses = s.responses := by cases r <;> rfl

@[simp] theorem setScalar_scalar_self (s : State) (r : ScalarReg) (v : Word) : (s.setScalar r v).scalar r = v := by cases r <;> rfl

theorem setScalar_scalar_other (s : State) (r q : ScalarReg) (v : Word) (h : q ≠ r) : (s.setScalar r v).scalar q = s.scalar q := by
  cases r <;> cases q <;> first | rfl | exact absurd rfl h

end Sys2Proof.Machine
end

