-- ==== Sys2Proof/Laws/Ops.lean ====
section
/-! SUPPORT. One lemma per shared operation that says everything it can do; the provers cite these instead of unfolding. -/

namespace Sys2Proof.Machine

/-! ### Except -/

/-- A computation that answers has an answering first part. -/
theorem bind_eq_ok {α β : Type} (x : Except Fault α) (f : α → Except Fault β) (r : β) :
    (x >>= f) = .ok r ↔ ∃ a, x = .ok a ∧ f a = .ok r := by
  cases x with
  | error e => simp [bind, Except.bind]
  | ok a => simp [bind, Except.bind]

@[simp] theorem ok_bind {α β : Type} (a : α) (f : α → Except Fault β) : ((Except.ok a : Except Fault α) >>= f) = f a := rfl

@[simp] theorem error_bind {α β : Type} (e : Fault) (f : α → Except Fault β) : ((Except.error e : Except Fault α) >>= f) = .error e := rfl

@[simp] theorem pure_eq_ok {α : Type} (a : α) : (pure a : Except Fault α) = .ok a := rfl

/-! ### The shared front of a command -/

/-- A command answers a next state exactly when the shared tests pass and its computation gives a word, and then only the response is new. -/
theorem runQuery_eq_next (s t : State) (body : Except Fault Word) :
    runQuery s body = .next t ↔ s.ready = true ∧ s.regN ≠ 0#64 ∧ s.supported = true ∧ ∃ v, body = .ok v ∧ t = s.respond v := by
  unfold runQuery
  cases hr : s.ready
  · simp
  · by_cases hn : s.regN = 0#64
    · simp [hn]
    · cases hs : s.supported
      · simp [hn]
      · cases body with
        | error f => simp [hn]
        | ok v => simp [hn, eq_comm]

/-- In a ready, non-empty, supported state the computation's word is the response. -/
theorem runQuery_ok (s : State) (v : Word) (hr : s.ready = true) (hn : s.regN ≠ 0#64) (hs : s.supported = true) :
    runQuery s (.ok v) = .next (s.respond v) := by
  simp [runQuery, hr, hn, hs]

/-- In a ready, non-empty, supported state the computation's fault is the command's fault. -/
theorem runQuery_error (s : State) (f : Fault) (hr : s.ready = true) (hn : s.regN ≠ 0#64) (hs : s.supported = true) :
    runQuery s (.error f) = .fault f := by
  simp [runQuery, hr, hn, hs]

/-! ### Reads -/

theorem readW_ok (s : State) (v : Nat) (h : v < s.nw) (hd : v < wDepth s.cfg) : readW s v = .ok (s.elemW v) := by
  simp [readW, h, hd]

theorem readS_ok (s : State) (v : Nat) (h : v < 2 * s.nsb) (hd : v < sDepth s.cfg) : readS s v = .ok (s.elemS v) := by
  simp [readS, h, hd]

theorem readC_ok (s : State) (b : Bool) (j : Nat) (h : j < s.cacheLen b) (hd : j < cacheDepth s.cfg) : readC s b j = .ok (s.elemC b j).toNat := by
  simp [readC, h, hd]

/-- The pair fetch answers the two elements of the entry, where the entry is in range. -/
theorem metaAt_ok (s : State) (sb : Nat) (h : sb < s.nsb) (hd : 2 * sb + 1 < sDepth s.cfg) :
    metaAt s sb = .ok (s.elemS (2 * sb), s.elemS (2 * sb + 1)) := by
  simp [metaAt, readS_ok s (2 * sb) (by omega) (by omega), readS_ok s (2 * sb + 1) (by omega) hd]

/-- CUM1 where the entry is in range (41_rank.md R121). -/
theorem cum1_ok (s : State) (sb : Nat) (h : sb < s.nsb) (hd : 2 * sb + 1 < sDepth s.cfg) :
    cum1 s sb = .ok (fieldR (s.elemS (2 * sb)) + s.l0Term sb) := by
  simp [cum1, metaAt_ok s sb h hd]

/-- The memories hold what a fitting `N` needs: `NW` and `NSB` are within the depths (10_state.md R25). -/
theorem lengths_fit (c : Config) (n : Nat) (h : n ≤ c.capN) : wordsFor n ≤ wDepth c ∧ 2 * entriesFor n ≤ sDepth c := by
  simp only [entriesFor, guardFor, sDepth, wDepth, wordsFor, ceilDiv]
  constructor
  · omega
  · omega

/-- A 64-bit `N` has at most `2^52 + 1` superblock entries (00_scope.md R15). -/
theorem nsb_le (s : State) : s.nsb ≤ 2 ^ 52 + 1 := by
  have h := s.regN.isLt
  simp only [State.nsb, entriesFor, guardFor, wordsFor, ceilDiv]
  omega

/-! ### Elements after a write -/

theorem elemW_setW (s : State) (i j : Nat) (v : Word) : (s.setW i v).elemW j = if j = i then v else s.elemW j := by
  simp only [State.elemW, setW_memW, setW_epoch, memGet_memSet]
  split <;> rfl

theorem elemS_setS (s : State) (i j : Nat) (v : Word) : (s.setS i v).elemS j = if j = i then v else s.elemS j := by
  simp only [State.elemS, setS_memS, setS_epoch, memGet_memSet]
  split <;> rfl

theorem elemC_setC1 (s : State) (b : Bool) (i j : Nat) (v : CacheEntry) :
    (s.setC1 i v).elemC b j = if b = true ∧ j = i then v else s.elemC b j := by
  cases b
  · simp [State.elemC]
  · simp only [State.elemC, setC1_memC1, setC1_epoch, memGet_memSet]
    by_cases h : j = i <;> simp [h]

theorem elemC_setC0 (s : State) (b : Bool) (i j : Nat) (v : CacheEntry) :
    (s.setC0 i v).elemC b j = if b = false ∧ j = i then v else s.elemC b j := by
  cases b
  · simp only [State.elemC, setC0_memC0, setC0_epoch, memGet_memSet]
    by_cases h : j = i <;> simp [h]
  · simp [State.elemC]

/-! ### Steps -/

/-- What a step can do: nothing where nothing waits, else serve the oldest transaction. -/
theorem step_cases (s : State) :
    (s.pending = [] ∧ step s = .next s) ∨ ∃ t rest, s.pending = t :: rest ∧ step s = serve t s.drop := by
  unfold step
  cases h : s.pending with
  | nil => exact .inl ⟨rfl, rfl⟩
  | cons t rest => exact .inr ⟨t, rest, rfl, rfl⟩

/-- What an accepted LOAD can be (20_memory.md R73). -/
theorem execLoad_cases (space : BitVec 3) (index data : Word) (s t : State) (h : execLoad space index data s = .next t) :
    configOk s.cfg = true ∧ ∃ g, decodeLoad s.cfg space index data = .ok g ∧ (s.ready = true → isControl g = true) ∧ t = applyLoad s g := by
  unfold execLoad at h
  cases hc : configOk s.cfg
  · simp [hc] at h
  · cases hd : decodeLoad s.cfg space index data with
    | error r => simp [hc, hd] at h
    | ok g =>
      simp only [hc, hd] at h
      by_cases hv : s.ready = true ∧ isControl g = false
      · simp [hv] at h
      · simp only [hv, if_false] at h
        refine ⟨rfl, g, rfl, ?_, ?_⟩
        · intro hr
          cases hi : isControl g
          · exact absurd ⟨hr, hi⟩ hv
          · rfl
        · simpa [eq_comm] using h

end Sys2Proof.Machine
end

