-- ==== Sys2Proof/Laws/Exec.lean ====
section
/-! SUPPORT. What the meanings and the parts of the rank and select pipelines can do, said once. -/

namespace Sys2Proof.Machine

/-- Every command is the shared front of a command over its own computation. -/
theorem exec_eq_runQuery (i : Instr) (s : State) : ∃ body, exec i s = runQuery s body := by
  cases i <;> exact ⟨_, rfl⟩

/-- A command that answers a next state has only delivered a response. -/
theorem exec_next (i : Instr) (s t : State) (h : exec i s = .next t) : ∃ v, t = s.respond v := by
  obtain ⟨body, hb⟩ := exec_eq_runQuery i s
  rw [hb] at h
  obtain ⟨_, _, _, v, _, rfl⟩ := (runQuery_eq_next s t body).1 h
  exact ⟨v, rfl⟩

/-! ### Rank -/

/-- WORDSUM where its words are in range (41_rank.md R124). -/
theorem wordSum_ok (s : State) (base word : Nat) (h : ∀ k < word, readW s (base + k) = .ok (s.elemW (base + k))) :
    wordSum s base word = .ok (BitVec.ofNat 64 ((List.range word).map (fun k => popcount (s.elemW (base + k)))).sum) := by
  induction word with
  | zero => rfl
  | succ k ih =>
    have hk := ih (fun j hj => h j (by omega))
    simp [wordSum, hk, h k (by omega), List.range_succ, BitVec.ofNat_add]

/-- PARTIAL issues no read at bit 0 (41_rank.md R125). -/
theorem partialSum_zero (s : State) (base word : Nat) : partialSum s base word 0 = .ok 0#64 := rfl

/-- PARTIAL where its word is in range (41_rank.md R125). -/
theorem partialSum_ok (s : State) (base word bit : Nat) (hb : bit ≠ 0) (h : readW s (base + word) = .ok (s.elemW (base + word))) :
    partialSum s base word bit = .ok (BitVec.ofNat 64 (popcount (s.elemW (base + word) &&& ((1#64 <<< bit) - 1#64)))) := by
  simp [partialSum, hb, h]

/-- A position above `N` is clamped to `N - 1` (41_rank.md R127). -/
theorem clamp_of_gt (s : State) (i : Word) (h : s.regN < i) : clamp s i = s.regN - 1#64 := if_pos h

/-- A position up to `N` is not clamped (R127). -/
theorem clamp_of_le (s : State) (i : Word) (h : i ≤ s.regN) : clamp s i = i := if_neg (BitVec.not_lt.mpr h)

/-! ### Select -/

/-- The upper bound of the bracket is a superblock entry in use (42_select_locate.md R146). -/
theorem bracketEnd_le (s : State) (b : Bool) (q stop : Nat) (h : bracketEnd s b q = .ok stop) : stop ≤ s.nsb - 1 := by
  unfold bracketEnd at h
  split at h
  · obtain ⟨e, -, he⟩ := (bind_eq_ok _ _ _).mp h
    injection he with he
    omega
  · injection h with h
    omega

/-- One probe of the binary search (42_select_locate.md R147). -/
theorem bsearch_step (s : State) (k : Word) (b : Bool) (fuel lo hi : Nat) (c : Word) (hlt : lo < hi) (hc : cum s ((lo + hi) / 2) b = .ok c) :
    bsearch s k b (fuel + 1) lo hi =
      if c < k then bsearch s k b fuel ((lo + hi) / 2 + 1) hi else bsearch s k b fuel lo ((lo + hi) / 2) := by
  simp only [bsearch, hlt, if_true, hc, ok_bind]

/-- The search is over where the interval is empty (R147). -/
theorem bsearch_done (s : State) (k : Word) (b : Bool) (fuel lo hi : Nat) (h : ¬ lo < hi) : bsearch s k b fuel lo hi = .ok (dec64 lo) := by
  cases fuel with
  | zero => rfl
  | succ n => simp [bsearch, h]

/-- One word of step C in range (43_select_scan.md R169). -/
theorem wordSelFrom_step (s : State) (base : Nat) (b : Bool) (n r : Nat) (y : Word) (h : readW s (base + (7 - n)) = .ok y) :
    wordSelFrom s base b (n + 1) r =
      if r ≤ popcount (if b then y else ~~~y) then .ok { w := 7 - n, r := r, x := if b then y else ~~~y }
      else wordSelFrom s base b n (r - popcount (if b then y else ~~~y)) := by
  simp only [wordSelFrom, h, ok_bind]
  rfl

/-- What step C finds reaches the count: `r <= popcount(x)`, in a word of the block (43_select_scan.md R169). -/
theorem wordSelFrom_hit (s : State) (base : Nat) (b : Bool) (n r : Nat) (hit : WordHit) (hn : n ≤ 8) (h : wordSelFrom s base b n r = .ok hit) :
    hit.r ≤ popcount hit.x ∧ hit.w < 8 := by
  induction n generalizing r with
  | zero => simp [wordSelFrom] at h
  | succ n ih =>
    simp only [wordSelFrom, bind_eq_ok] at h
    obtain ⟨y, _, h⟩ := h
    by_cases hle : r ≤ popcount (if b then y else ~~~y)
    · rw [if_pos hle, pure_eq_ok, Except.ok.injEq] at h
      subst h
      exact ⟨hle, by simp only; omega⟩
    · rw [if_neg hle] at h
      exact ih _ (by omega) h

/-! ### One transaction -/

/-- A cache LOAD that decodes has decoded its data. -/
theorem bind_load_ok (x : Except Refusal CacheEntry) (f : CacheEntry → LoadTarget) (g : LoadTarget) :
    ((do let e ← x; return f e) = Except.ok g) ↔ ∃ e, x = .ok e ∧ f e = g := by
  cases x with
  | error e => simp [bind, Except.bind]
  | ok a => simp [bind, Except.bind, pure, Except.pure]

/-- The addressed element of a load lies inside its image; control and scalar registers carry no index. -/
def loadTargetFits (c : Config) : LoadTarget → Prop
  | .control _ => True
  | .scalar _ _ => True
  | .elemW i _ => i < wDepth c
  | .elemS i _ => i < sDepth c
  | .elemC1 i _ => i < cacheDepth c
  | .elemC0 i _ => i < cacheDepth c

/-- What a LOAD that decodes writes to is within the depth of its memory (20_memory.md R73). -/
theorem decodeLoad_fits (c : Config) (space : BitVec 3) (index data : Word) (g : LoadTarget)
    (h : decodeLoad c space index data = .ok g) : loadTargetFits c g := by
  unfold decodeLoad at h
  cases hsp : spaceOfCode space with
  | none => simp [hsp] at h
  | some sp =>
    cases sp with
    | reg =>
      simp only [hsp, decodeRegLoad] at h
      split at h
      · split at h
        · injection h with h
          subst h
          trivial
        · cases h
      · split at h
        · injection h with h
          subst h
          trivial
        · cases h
    | w =>
      simp only [hsp] at h
      split at h
      · injection h with h
        subst h
        assumption
      · cases h
    | s =>
      simp only [hsp] at h
      split at h
      · injection h with h
        subst h
        assumption
      · cases h
    | c1 =>
      simp only [hsp] at h
      split at h
      · simp only [bind_load_ok] at h
        obtain ⟨e, _, h⟩ := h
        subst h
        assumption
      · cases h
    | c0 =>
      simp only [hsp] at h
      split at h
      · simp only [bind_load_ok] at h
        obtain ⟨e, _, h⟩ := h
        subst h
        assumption
      · cases h

end Sys2Proof.Machine
end

