-- ==== Sys2Proof/Laws/Image.lean ====
section
/-! SUPPORT. What a valid image says about the ranges of the reads (10_state.md R25, R29). -/

namespace Sys2Proof.Machine

theorem IsImage.nw_eq {B : List Bool} {s : State} (h : IsImage B s) : s.nw = wordsFor B.length := by
  rw [State.nw, h.regN]

theorem IsImage.nsb_eq {B : List Bool} {s : State} (h : IsImage B s) : s.nsb = entriesFor B.length := by
  rw [State.nsb, h.regN]

theorem IsImage.regN_ne {B : List Bool} {s : State} (h : IsImage B s) : s.regN ≠ 0#64 := by
  intro h0
  have h1 := h.regN
  have h2 := h.nonempty
  rw [h0] at h1
  simp at h1
  omega

/-- An image is in the supported range and fits the memories. -/
theorem IsImage.supported {B : List Bool} {s : State} (h : IsImage B s) : s.supported = true ∧ s.regN.toNat ≤ s.cfg.capN := by
  have h1 := h.fits
  have h2 := h.regN
  refine ⟨?_, by omega⟩
  simp only [State.supported, h.config, Bool.true_and, decide_eq_true_eq]
  omega

/-- Every entry in use of an image can be read (40_access.md R102). -/
theorem IsImage.metaAt_ok {B : List Bool} {s : State} (h : IsImage B s) (sb : Nat) (hsb : sb < entriesFor B.length) :
    metaAt s sb = .ok (s.elemS (2 * sb), s.elemS (2 * sb + 1)) := by
  have h1 := h.supported.2
  have h2 := (lengths_fit s.cfg s.regN.toNat h1).2
  rw [h.regN] at h2
  exact Machine.metaAt_ok s sb (by rw [h.nsb_eq]; exact hsb) (by omega)

/-- Every word in use of an image can be read. -/
theorem IsImage.readW_ok {B : List Bool} {s : State} (h : IsImage B s) (v : Nat) (hv : v < wordsFor B.length) : readW s v = .ok (s.elemW v) := by
  have h1 := h.supported.2
  have h2 := (lengths_fit s.cfg s.regN.toNat h1).1
  rw [h.regN] at h2
  exact Machine.readW_ok s v (by rw [h.nw_eq]; exact hv) (by omega)

end Sys2Proof.Machine
end

