-- ==== Sys2Proof/Laws/PerInstr.lean ====
section
/-! SUPPORT. A family of facts about every command as syntax: what its constructor encodes to (30_encoding.md R82, R91). -/

namespace Sys2Proof.Laws.Encoding

/-- The encoding of a command is not a reserved word, and the command is well formed. -/
def Statement (i : Instr) : Prop := i.wf = true ∧ opcodeOf i ∈ [0b000, 0b010, 0b011, 0b100, 0b101]

theorem access (p : Word) : Statement (.access p) := by simp [Statement, Instr.wf, opcodeOf]

theorem rank0 (p : Word) : Statement (.rank0 p) := by simp [Statement, Instr.wf, opcodeOf]

theorem rank1 (p : Word) : Statement (.rank1 p) := by simp [Statement, Instr.wf, opcodeOf]

theorem select0 (k : Word) : Statement (.select0 k) := by simp [Statement, Instr.wf, opcodeOf]

theorem select1 (k : Word) : Statement (.select1 k) := by simp [Statement, Instr.wf, opcodeOf]

end Sys2Proof.Laws.Encoding
end

