-- ==== Sys2Proof/Tests/Slice0.lean ====
section
/-! SUPPORT. The model's own tests: expected values from spec/95_test_vectors.md and the worked examples of the rules; the smoke tests of WellFormed; the witnesses of the hypotheses of the statements. -/

namespace Sys2Proof.Tests

open Sys2Proof Sys2Proof.Machine

/-- The response words after an outcome. -/
def words : Host.Outcome State Fault Refusal → List Word
  | .next t => t.responses
  | .fault _ => []
  | .refused _ => []

/-- The fault of an outcome. -/
def faultOf : Host.Outcome State Fault Refusal → Option Fault
  | .next _ => none
  | .fault f => some f
  | .refused _ => none

/-- The refusal of an outcome. -/
def refusedBy : Host.Outcome State Fault Refusal → Option Refusal
  | .next _ => none
  | .fault _ => none
  | .refused r => some r

/-- Image I1 of 95_test_vectors.md section 2.3: `bv("0110100110010110")`. -/
def i1 : State :=
  { State.reset with
    regN := 16, oneCount := 8, zeroCount := 8, lastOnePos := 14, lastZeroPos := 15, ready := true
    memW := [(0, 0x6996)]
    memS := [(0, 0x800), (1, 0x8008008008008008), (2, 0x800000), (3, 0)] }

/-- The bits of image I1. -/
def bits1 : List Bool :=
  [false, true, true, false, true, false, false, true, true, false, false, true, false, true, true, false]

/-- Image I4 of section 2.3: `bv("01" repeated 4096)`. -/
def i4 : State :=
  { State.reset with
    regN := 8192, oneCount := 4096, zeroCount := 4096, lastOnePos := 8191, lastZeroPos := 8190, ready := true
    memW := memOf 0 (List.replicate 128 0xAAAAAAAAAAAAAAAA)
    memS := memOf 0 [0x10020, 0x0700600500400300, 0x80010020, 0x0700600500400300, 0x100000000, 0] }

/-- The superblock entries and caches of image I6 of section 2.3 (`D = 1024`, `L0_SB = 2`), with the words the tests below read. -/
def i6 : State :=
  { State.resetWith { d := 1024, l0sb := 2, capN := 16384 } with
    regN := 12388, l0Ones := 2731, oneCount := 4130, zeroCount := 8258, lastOnePos := 12387, lastZeroPos := 12386, ready := true
    memW := [(140, 0x2492492492492492)] ++ [(192, 0x9249249249249249), (193, 0x924924924)]
    memS := memOf 0 [0xAB15, 0x64AB4003562AB200, 0x5560AA15, 0x54AA4003552AA200, 0xAB15, 0x54AB4003552AB200, 0x55502202,
      0x2022022022022022, 0x57700000, 0]
    memC1 := memOf 0 [0, 1, 2, 2]
    memC0 := memOf 0 [0, 0, 1, 1, 1, 2, 2, 2] }

/-! ### Decoding: words of 30_encoding.md R91 and 95_test_vectors.md section 2.1 -/

theorem test_decode_access : decodeTableWord 72 0x00000000000000007 = some (.access 7) := by decide
theorem test_decode_rank0 : decodeTableWord 72 0x20000000000000010 = some (.rank0 16) := by decide
theorem test_decode_rank1 : decodeTableWord 72 0x3FFFFFFFFFFFFFFFF = some (.rank1 0xFFFFFFFFFFFFFFFF) := by decide
theorem test_decode_select0 : decodeTableWord 72 0x40000000000000008 = some (.select0 8) := by decide
theorem test_decode_select1 : decodeTableWord 72 0x50000000000002710 = some (.select1 10000) := by decide
theorem test_decode_reserved : [0x10000000000000005, 0x60000000000000000, 0x7FFFFFFFFFFFFFFFF].map (decodeTableWord 72) = [none, none, none] := by decide
theorem test_encode_select1 : encode (.select1 10000) = 0x50000000000002710#67 := by decide

/-! ### The text form (30_encoding.md R90, R91) -/

theorem test_assemble_rank1 : assemble "rank 1 8".toList = some 0x30000000000000008#67 := by decide
theorem test_assemble_not_a_bit : assemble "rank 2 8".toList = none := by decide

/-! ### WellFormed: an ill-formed term for each check -/

theorem smoke_command_reserved : [0x10000000000000005#67, 0x60000000000000000#67, 0x7FFFFFFFFFFFFFFFF#67].map commandWf = [false, false, false] := by decide
theorem smoke_command_fine : commandWf (encode (.select1 0)) = true := by decide
theorem smoke_load_space : loadWf Config.default 5 0 0 = false := by decide
theorem smoke_load_register : loadWf Config.default 0 7 0 = false := by decide
theorem smoke_load_control_bits : loadWf Config.default 0 6 2 = false := by decide
theorem smoke_load_depth_w : loadWf Config.default 1 (BitVec.ofNat 64 (2 ^ 38)) 0 = false := by decide
theorem smoke_load_depth_s : loadWf Config.default 2 (BitVec.ofNat 64 (2 ^ 33 + 2)) 0 = false := by decide
theorem smoke_load_depth_c1 : loadWf Config.default 3 (BitVec.ofNat 64 (2 ^ 31)) 0 = false := by decide
theorem smoke_load_depth_c0 : loadWf Config.default 4 (BitVec.ofNat 64 (2 ^ 31)) 0 = false := by decide
theorem smoke_load_cache_bits : loadWf Config.default 3 0 0x100000000 = false ∧ loadWf Config.default 4 0 0x100000000 = false := by decide
theorem smoke_load_fine : loadWf Config.default 1 (BitVec.ofNat 64 (2 ^ 38 - 1)) 7 = true := by decide

/-! ### Field extraction: row 1 of section 2.2, and its encoding -/

theorem test_fields_row1 : (List.range 7).map (fieldB 0x123456789AB1112A 0x5777666555444333) = [0x111, 0x2A5, 0x333, 0x444, 0x555, 0x666, 0x777] := by decide
theorem test_field_r_row1 : fieldR 0x123456789AB1112A = 0x123456789AB := by decide

/-! ### The commands: sections 2.4 to 2.12 -/

theorem test_access_7 : words (exec (.access 7) i1) = [1] := by decide
theorem test_access_past_end : faultOf (exec (.access 16) i1) = some .accessRange := by decide
theorem test_rank1_8 : words (exec (.rank1 8) i1) = [4] := by decide
theorem test_rank1_l0_split : words (exec (.rank1 12388) i6) = [4130] := by decide
theorem test_rank0_clamped : words (exec (.rank0 17) i1) = [7] := by decide
theorem test_rank0_4097 : words (exec (.rank0 4097) i4) = [2049] := by decide
theorem test_select1_l0_split : words (exec (.select1 4129) i6) = [12384] := by decide
theorem test_select1_fast_path : words (exec (.select1 8) i1) = [14] := by decide
theorem test_select0_binary_search : words (exec (.select0 3000) i4) = [5998] := by decide +kernel
theorem test_select0_past_total : faultOf (exec (.select0 9) i1) = some .selectRange := by decide

/-- Section 2.6, image I6: a saturating start, and the last 1-bit of the first region. -/
theorem test_locate_cache : (locate i6 1367 true).toOption = some 1 ∧ (locate i6 2731 true).toOption = some 1 ∧ (locate i6 2732 true).toOption = some 2 := by decide

/-- Section 2.11. -/
theorem test_bitsel : (List.range 9).map (bitSel 0x6996) = [0, 1, 2, 4, 7, 8, 11, 13, 14].map some ∧ bitSel 1 2 = none := by decide
theorem test_reference_loop : referenceSelect 0x8000000000000000 1 = some 63 := by decide

/-! ### The load port and whole exchanges: programs P0 and P5 of section 3 -/

/-- The transactions of P0. -/
def p0 : List Transaction :=
  [.load 2 0 0, .load 2 1 0, .load 2 2 0, .load 2 3 0, .load 1 0 0x6996, .load 2 0 0x800, .load 2 1 0x8008008008008008,
    .load 2 2 0x800000, .load 2 3 0, .load 0 1 0, .load 0 2 8, .load 0 3 8, .load 0 4 14, .load 0 5 15, .load 0 0 16, .load 0 6 1]

theorem test_p0_loads_image_1 : (session State.reset p0).2 = i1 := by decide +kernel
theorem test_p0_load_after_ready : refusedBy (execLoad 1 0 0 i1) = some .loadWhileReady := by decide

/-- P5: violations and reserved words leave the next command as it was. -/
theorem test_p5 : (session i1 ([0x30000000000000011, 0x20000000000000011, 0x10, 0x50000000000000009, 0x10000000000000005,
      0x60000000000000001, 0xF].map (fun w => Transaction.command (BitVec.ofNat 67 w)))).1 =
    [.response 8, .response 7, .noResult .accessRange, .noResult .selectRange, .refused .reservedAccessB, .refused .reservedOp,
      .response 0] := by decide

/-- R234, the worked build. -/
theorem test_worked_build : (buildImage Config.default bits1).s = [0x800, 0x8008008008008008, 0x800000, 0] := by decide
theorem test_built_image_1 : (buildImage Config.default bits1).install State.reset = i1 := by decide

/-- R218: every character other than '0' and '1' is skipped. -/
theorem test_accept_bits : acceptBits "0110 1001\r\n1001x0110".toList = bits1 := by decide

/-! ### The table word and the step -/

/-- After reset every command is V1 (70_reset_and_hazards.md R215). -/
theorem test_step_from_reset : faultOf (step (State.reset.withFetchWord 72 0x7)) = some .notReady := by decide
theorem test_step_on_image : words (step (i1.withFetchWord 72 0x7)) = [1] := by decide

/-! ### Witnesses: states and operands that meet the hypotheses of the statements -/

theorem isLast_one : IsLast bits1 true 14 := by
  refine ⟨by decide, fun q hq => ?_⟩
  by_cases h : q < 16
  · have : q = 15 := by omega
    subst this
    decide
  · have hn : bits1[q]? = none := List.getElem?_eq_none (by simp [bits1]; omega)
    simp [hn]

theorem isLast_zero : IsLast bits1 false 15 := by
  refine ⟨by decide, fun q hq => ?_⟩
  have hn : bits1[q]? = none := List.getElem?_eq_none (by simp [bits1]; omega)
  simp [hn]

/-- I1 is a valid image: the hypothesis `IsImage B s` of the correctness statements. -/
theorem i1_isImage : IsImage bits1 i1 where
  config := by decide
  nonempty := by decide
  fits := by decide
  regN := by decide
  words := by decide
  fieldsR := by decide
  fieldsB := by decide
  l0Ones := by decide
  oneCount := by decide
  zeroCount := by decide
  lastOne := fun _ => isLast_one
  lastZero := fun _ => isLast_zero
  caches := by
    intro b j hj
    have h0 : i1.cacheLen b = 0 := by cases b <;> decide
    omega

/-- A ready, non-empty, supported state whose `N` fits: the hypothesis `Queryable s`. -/
theorem i1_queryable : Queryable i1 ∧ Queryable i4 ∧ Queryable i6 := by
  simp only [Queryable]
  decide

/-- DecodeInvertsEncode, DecoderIsTheOpcodeMap, ReservedWordsAreRefused: a word for each of the eight values of the three high bits, at both ends of the operand. -/
theorem witness_opcode_map :
    ([0, 1, 2, 3, 4, 5, 6, 7].all fun q => (BitVec.ofNat 67 (q * 2 ^ 64)).toNat / 2 ^ 64 == q && (BitVec.ofNat 67 (q * 2 ^ 64 + (2 ^ 64 - 1))).toNat / 2 ^ 64 == q) = true ∧
    (Instr.access 7).wf = true ∧ decode 7 = .ok (.access 7) := by
  refine ⟨by decide, rfl, rfl⟩

/-- StepRunsTheDecodedCommand: a waiting command, LOAD, reset event and reserved word, and nothing waiting. -/
theorem witness_step_clauses :
    (i1.presentCommand 7).pending = .command 7 :: [] ∧ decode 7 = .ok (.access 7) ∧
    ({ i1 with pending := [.load 0 6 0] } : State).pending = .load 0 6 0 :: [] ∧
    ({ i1 with pending := [.reset] } : State).pending = .reset :: [] ∧
    (i1.presentCommand 0x10000000000000005).pending = .command 0x10000000000000005 :: [] ∧ (0x10000000000000005#67).toNat / 2 ^ 64 = 1 ∧
    (0x6FFFFFFFFFFFFFFFF#67).toNat / 2 ^ 64 = 6 ∧ (0x70000000000000000#67).toNat / 2 ^ 64 = 7 ∧ i1.pending = [] :=
  ⟨rfl, rfl, rfl, rfl, rfl, rfl, rfl, rfl, rfl⟩

/-- StepKeepsTheStateWellFormed: a well-formed state with a LOAD that steps. -/
theorem witness_step_well_formed :
    WellFormedState ({ State.reset with pending := [.load 1 5 7] } : State) ∧
    step { State.reset with pending := [.load 1 5 7] } = .next { State.reset with memW := [(5, 7)] } := by
  refine ⟨?_, rfl⟩
  simp only [WellFormedState]
  decide

/-- ReadyStateIsFrozen: a ready state with a command, and one with a LOAD that clears `READY`. -/
theorem witness_ready_steps :
    i1.ready = true ∧ (i1.presentCommand 7).pending.head? ≠ some .reset ∧ step (i1.presentCommand 7) = .next (i1.respond 1) ∧
    step { i1 with pending := [.load 0 6 0] } = .next (i1.setReady false) := ⟨rfl, by decide, rfl, rfl⟩

/-- CommandsBeforeReadyAreV1, CommandsOnTheEmptyImageAreV2, UnsupportedConfigurationIsRefused (a bad `D`, and an `N` above `N_MAX`). -/
theorem witness_contract_states :
    State.reset.ready = false ∧ (State.reset.setReady true).ready = true ∧ (State.reset.setReady true).regN = 0#64 ∧
    ({ i1 with cfg := { d := 63, l0sb := 1, capN := 1 } } : State).supported = false ∧
    (i1.setScalar .n (BitVec.ofNat 64 (2 ^ 44 + 1))).supported = false ∧
    configOk { d := 63, l0sb := 1, capN := 1 } = false := by decide

/-- CommandsChangeNothingButTheResponse: each command answers a next state on image I1. -/
theorem witness_commands_answer :
    Answers i1 (.access 15) 0 ∧ Answers i1 (.rank0 16) 8 ∧ Answers i1 (.rank1 16) 8 ∧ Answers i1 (.select0 1) 0 ∧ Answers i1 (.select1 4) 7 :=
  ⟨rfl, rfl, rfl, rfl, rfl⟩

/-- OutcomeDependsOnTheImageAlone: two different states that hold the same image. -/
theorem witness_same_image : SameImage i1 (i1.respond 5) ∧ i1 ≠ i1.respond 5 := by
  refine ⟨⟨rfl, rfl, rfl, rfl, rfl, rfl, rfl, rfl, rfl, rfl, rfl, rfl, rfl⟩, by decide⟩

/-- AccessAnswersTheBit: the last position in range and the first one out of it. -/
theorem witness_access_range : (15 : Word) < i1.regN ∧ i1.regN ≤ (16 : Word) ∧ i1.ready = true ∧ i1.regN ≠ 0#64 ∧ i1.supported = true := by decide

/-- RankOvershootIsClamped, RankCountsTheOccurrences, RanksAddUpToThePosition: `i = N` and `i = N + 1`. -/
theorem witness_rank_boundary : (16 : Word) ≤ i1.regN ∧ i1.regN < (17 : Word) := by decide

/-- RankAtTheEndReadsMetadataOnly: `N = 8192`, and `N = 512`. -/
theorem witness_rank_end :
    i4.regN.toNat % 4096 = 0 ∧ Queryable (i1.setScalar .n 512) ∧ (i1.setScalar .n 512).regN.toNat % 512 = 0 ∧
    (i1.setScalar .n 512).regN.toNat % 4096 ≠ 0 := by
  simp only [Queryable]
  decide

/-- SelectZeroIsTheSentinel, SelectTestsInOrder, LocateFindsTheSuperblock, ScanFindsTheBit, SelectFindsTheKthBit, FastPathAgreesWithTheGeneralPath, RankAndSelectAreInverse: the ordinals at the ends of each range. -/
theorem witness_select_ranges :
    (0 : Word) = 0#64 ∧ (9 : Word) ≠ 0#64 ∧ i1.oneCount < (9 : Word) ∧ (8 : Word) = i1.oneCount ∧ 1#64 ≤ (1 : Word) ∧ (1 : Word) < i1.oneCount ∧
    (7 : Word) < i1.zeroCount ∧ (8 : Word) ≤ i1.total false ∧ 1#64 ≤ i1.total true ∧ bits1[(1 : Word).toNat]? = some true ∧
    bits1[(15 : Word).toNat]? = some false := by decide

/-- SelectTestsInOrder, the general path: LOCATE, CUM and SCAN answer on image I1. -/
theorem witness_select_general : locate i1 4 true = .ok 0 ∧ cum i1 0 true = .ok 0 ∧ scan i1 0 (4 - 0) true = .ok 7 := ⟨rfl, rfl, rfl⟩

/-- SelectTestsInOrder, LOCATE stops: an invalid state whose `N` is past the depth of `S`. -/
def pastDepth : State :=
  { State.resetWith { d := 64, l0sb := 2, capN := 1 } with regN := 8192, oneCount := 4096, ready := true, memS := [(2, 0), (3, 0)] }

theorem witness_locate_stops :
    pastDepth.ready = true ∧ pastDepth.regN ≠ 0#64 ∧ pastDepth.supported = true ∧ (5 : Word) < pastDepth.oneCount ∧
    locate pastDepth 5 true = .error .indexRange := ⟨rfl, by decide, by decide, by decide, rfl⟩

/-- SelectTestsInOrder, CUM stops after LOCATE: an invalid state whose first entry counts too much, so that the search ends below entry 0. -/
def badFirstEntry : State :=
  { State.reset with
    regN := 16384, oneCount := 9000, ready := true
    memS := [(0, 0x100000000), (1, 0), (2, 0), (3, 0), (8, 0x100000000), (9, 0)]
    memC1 := [(0, 0)] }

theorem witness_cum_stops :
    badFirstEntry.ready = true ∧ badFirstEntry.regN ≠ 0#64 ∧ badFirstEntry.supported = true ∧ (5 : Word) < badFirstEntry.oneCount ∧
    locate badFirstEntry 5 true = .ok (2 ^ 64 - 1) ∧ cum badFirstEntry (2 ^ 64 - 1) true = .error .indexRange :=
  ⟨rfl, by decide, by decide, by decide, rfl, rfl⟩

/-- SelectTestsInOrder, SCAN stops: image I1 with its word cleared is no image. -/
theorem witness_scan_stops :
    locate (i1.setW 0 0) 4 true = .ok 0 ∧ cum (i1.setW 0 0) 0 true = .ok 0 ∧ scan (i1.setW 0 0) 0 4 true = .error .indexRange :=
  ⟨rfl, rfl, rfl⟩

/-- BinarySearchNeedsNoMoreFuel: an interval that uses all of its fuel bound, and brackets of image I6 with and without a cache hint on each side. -/
theorem witness_interval :
    9 - 2 < 2 ^ 3 ∧ bracketStart i6 true 2 = .ok 0 ∧ bracketEnd i6 true 2 = .ok 3 ∧
    bracketStart i6 true 0 = .ok 0 ∧ bracketEnd i6 true 4 = .ok 4 := ⟨by decide, rfl, rfl, rfl, rfl⟩

/-- InContractCommandsComplete: each command in contract on image I1, at the end of its range. -/
theorem witness_in_contract :
    InContract (.access 15) i1 ∧ InContract (.rank0 16) i1 ∧ InContract (.rank1 16) i1 ∧ InContract (.select0 8) i1 ∧ InContract (.select1 8) i1 := by
  refine ⟨⟨rfl, ⟨bits1, i1_isImage⟩, ?_⟩, ⟨rfl, ⟨bits1, i1_isImage⟩, ?_⟩, ⟨rfl, ⟨bits1, i1_isImage⟩, ?_⟩, ⟨rfl, ⟨bits1, i1_isImage⟩, ?_⟩, ⟨rfl, ⟨bits1, i1_isImage⟩, ?_⟩⟩ <;>
    simp only [operandInContract] <;> decide

/-- EntryEncodingIsABijection, BlockFieldsOfAValidImage, CumulativeCountsOfAValidImage, CoordinatesAndPositionsAreInverse: the ends of the ranges. -/
theorem witness_metadata_ranges :
    2 ^ 44 - 1 < 2 ^ 44 ∧ (∀ k < 7, (fun _ => 4095) k < 2 ^ 12) ∧ 1 < entriesFor bits1.length ∧ 0 + 1 < entriesFor bits1.length ∧
    0 < guardFor bits1.length ∧ 2 ^ 52 - 1 < 2 ^ 52 := by decide

/-- BitSelIsTheRthSetBit, ReferenceLoopComputesBitSel, MaskedPopcountCountsTheLowBits: `r` at the ends of `1..popcount(x)` and above. -/
theorem witness_bitsel : 1 ≤ popcount 0x6996 ∧ 8 ≤ popcount 0x6996 ∧ popcount 0x6996 < 9 ∧ 63 < 64 := by decide

/-- BlkSelIsTheFirstBlockReached: non-decreasing counts, and a block that is reached. -/
theorem witness_blksel :
    (∀ i < 6, blkCnt 0x800 0x8008008008008008 i true ≤ blkCnt 0x800 0x8008008008008008 (i + 1) true) ∧
    blkSel 0x800 0x8008008008008008 8 true < 7 ∧ blkSel 0x800 0x8008008008008008 9 true = 7 := by decide

/-- LoadWritesOneElement, LoadWritesOneRegister, ControlLoadSetsReadyAlone: the last index of each memory, the largest entry, each register. -/
theorem witness_load_ranges :
    configOk State.reset.cfg = true ∧ State.reset.ready = false ∧ 2 ^ 38 - 1 < wDepth State.reset.cfg ∧ 2 ^ 33 + 1 < sDepth State.reset.cfg ∧
    2 ^ 31 - 1 < cacheDepth State.reset.cfg ∧ 2 ^ 32 - 1 < 2 ^ 32 ∧
    (5, ScalarReg.lastZeroPos) ∈ [(0, ScalarReg.n), (1, .l0Ones), (2, .oneCount), (3, .zeroCount), (4, .lastOnePos), (5, .lastZeroPos)] := by decide

/-- LoadIsAcceptedOrRefusedByForm: an ill-formed LOAD, a well-formed one while `READY = 1`, and one to the control register. -/
theorem witness_load_form :
    loadWf i1.cfg 7 0 0 = false ∧ loadWf i1.cfg 1 0 0 = true ∧ i1.ready = true ∧ ¬ ((1 : BitVec 3) = 0 ∧ (0 : Word) = 6) ∧
    loadWf i1.cfg 0 6 1 = true ∧ State.reset.ready = false := by decide

/-- BuildPassProducesTheImage, LoaderSequenceMakesTheBlockReady, AccessIsTheRankDifferenceAndReadsBack: a sequence the default instance can hold. -/
theorem witness_loader :
    configOk State.reset.cfg = true ∧ 1 ≤ bits1.length ∧ bits1.length ≤ min State.reset.cfg.capN (nMax State.reset.cfg) ∧
    (∃ seq, loaderSequence State.reset.cfg (acceptBits "0110100110010110".toList) = some seq ∧
      ({ State.reset with pending := seq } : State).pending = seq ++ []) ∧
    (acceptBits "0110100110010110".toList)[1]? = some true := by
  refine ⟨by decide, by decide, by decide, ⟨_, rfl, (List.append_nil _).symm⟩, by decide⟩

end Sys2Proof.Tests
end

section
/-! The supported configurations (93_implementation_defined.md U15): what lies outside them is refused. -/

namespace Sys2Proof.Machine

/-- Outside the supported range the shared front refuses a command past V1 and V2, whatever its own computation is. -/
theorem runQuery_unsupported (s : State) (body : Except Fault Word) (hr : s.ready = true) (hn : s.regN ≠ 0#64)
    (hs : s.supported = false) : runQuery s body = .refused .unsupportedConfig := by
  simp [runQuery, hr, hn, hs]

/-- The test of the configuration comes before a LOAD's form and before V7 (log 3, log 11). -/
theorem execLoad_unsupported (space : BitVec 3) (index data : Word) (s : State) (hc : configOk s.cfg = false) :
    execLoad space index data s = .refused .unsupportedConfig := by
  simp [execLoad, hc]

/-- Settles O13: a command reaches the test in the front that all five share, a LOAD begins with it. -/
theorem unsupportedConfigurationIsRefused : Obligations.UnsupportedConfigurationIsRefused := by
  unfold Obligations.UnsupportedConfigurationIsRefused
  constructor
  · intro i s hr hn hs
    obtain ⟨body, hbody⟩ := exec_eq_runQuery i s
    rw [hbody]
    exact runQuery_unsupported s body hr hn hs
  · exact execLoad_unsupported

end Sys2Proof.Machine
end

section
/-! What a step can change: the invariant of every step (10_state.md R25), the freeze while `READY = 1` (R39), and the frame of the commands (R42). -/

namespace Sys2Proof.Machine

/-! ### What an accepted step can be -/

theorem serve_of_decode_ok (word : CommandWord) (i : Instr) (s : State) (h : decode word = .ok i) :
    serve (.command word) s = exec i s := by
  simp [serve, execCommand, h]

theorem serve_of_decode_error (word : CommandWord) (e : DecodeError) (s : State) (h : decode word = .error e) :
    serve (.command word) s = .refused (refusalOf e) := by
  simp [serve, execCommand, h]

/-- The three ways a transaction is accepted: a command delivers a response, a LOAD writes a target within its depth (while `READY = 1` only the control register), a reset event resets. -/
theorem serve_next_cases (t : Transaction) (s s' : State) (h : serve t s = .next s') :
    (∃ v, s' = s.respond v) ∨
    (∃ g, loadTargetFits s.cfg g ∧ (s.ready = true → isControl g = true) ∧ s' = applyLoad s g) ∨
    (t = .reset ∧ s' = s.resetEvent) := by
  cases t with
  | command word =>
    cases hd : decode word with
    | ok i =>
      rw [serve_of_decode_ok word i s hd] at h
      exact .inl (exec_next i s s' h)
    | error e =>
      rw [serve_of_decode_error word e s hd] at h
      cases h
  | load space index data =>
    obtain ⟨-, g, hg, hready, rfl⟩ := execLoad_cases space index data s s' h
    exact .inr (.inl ⟨g, decodeLoad_fits _ _ _ _ g hg, hready, rfl⟩)
  | reset =>
    injection h with h
    exact .inr (.inr ⟨rfl, h.symm⟩)

/-- The four ways a step answers a next state: nothing waits, or the oldest transaction is accepted in one of its three ways. -/
theorem step_next_cases (s s' : State) (h : step s = .next s') :
    s' = s ∨
    (∃ v, s' = s.drop.respond v) ∨
    (∃ g, loadTargetFits s.cfg g ∧ (s.ready = true → isControl g = true) ∧ s' = applyLoad s.drop g) ∨
    (s.pending.head? = some .reset ∧ s' = s.drop.resetEvent) := by
  obtain ⟨-, hidle⟩ | ⟨t, rest, hp, hserve⟩ := step_cases s
  · rw [hidle] at h
    injection h with h
    exact .inl h.symm
  · rw [hserve] at h
    obtain hresp | hload | ⟨rfl, hreset⟩ := serve_next_cases t s.drop s' h
    · exact .inr (.inl hresp)
    · exact .inr (.inr (.inl hload))
    · exact .inr (.inr (.inr ⟨by simp [hp], hreset⟩))

/-! ### The invariant -/

/-- Memories with nothing written are well formed. -/
theorem wellFormedState_of_empty (s : State) (hW : s.memW = []) (hS : s.memS = []) (hC1 : s.memC1 = []) (hC0 : s.memC0 = []) :
    WellFormedState s := by
  simp [WellFormedState, hW, hS, hC1, hC0, memWf, memBelow]

@[simp] theorem applyLoad_cfg (s : State) (g : LoadTarget) : (applyLoad s g).cfg = s.cfg := by
  cases g <;> simp [applyLoad]

/-- A write to a target within its depth keeps every memory canonical and within its depth. -/
theorem applyLoad_keeps_wellFormed (s : State) (g : LoadTarget) (hs : WellFormedState s) (hg : loadTargetFits s.cfg g) :
    WellFormedState (applyLoad s g) := by
  cases g with
  | control v => exact hs
  | scalar r v => simpa [WellFormedState, applyLoad] using hs
  | elemW i v =>
    obtain ⟨⟨hwf, hbelow⟩, hrest⟩ := hs
    exact ⟨⟨memWf_memSet _ i v hwf, memBelow_memSet _ _ i v hg hbelow⟩, hrest⟩
  | elemS i v =>
    obtain ⟨hW, ⟨hwf, hbelow⟩, hrest⟩ := hs
    exact ⟨hW, ⟨memWf_memSet _ i v hwf, memBelow_memSet _ _ i v hg hbelow⟩, hrest⟩
  | elemC1 i v =>
    obtain ⟨hW, hS, ⟨hwf, hbelow⟩, hC0⟩ := hs
    exact ⟨hW, hS, ⟨memWf_memSet _ i v hwf, memBelow_memSet _ _ i v hg hbelow⟩, hC0⟩
  | elemC0 i v =>
    obtain ⟨hW, hS, hC1, ⟨hwf, hbelow⟩⟩ := hs
    exact ⟨hW, hS, hC1, ⟨memWf_memSet _ i v hwf, memBelow_memSet _ _ i v hg hbelow⟩⟩

/-- Settles O7: idling and a response leave the memories alone, a LOAD writes within the depth, a reset event empties the memories. -/
theorem stepKeepsTheStateWellFormed : Obligations.StepKeepsTheStateWellFormed := by
  unfold Obligations.StepKeepsTheStateWellFormed
  intro s t hs hstep
  obtain rfl | ⟨v, rfl⟩ | ⟨g, hfits, -, rfl⟩ | ⟨-, rfl⟩ := step_next_cases s t hstep
  · exact ⟨hs, rfl⟩
  · exact ⟨hs, rfl⟩
  · exact ⟨applyLoad_keeps_wellFormed s.drop g hs hfits, by simp⟩
  · exact ⟨wellFormedState_of_empty _ rfl rfl rfl rfl, rfl⟩

/-! ### The frame -/

/-- All that an image consists of, `READY` excepted: the scalar registers, the elements and lists of the memories, the configuration and the number of resets. -/
def SameStore (s t : State) : Prop :=
  SameScalars s t ∧ SameElements s t ∧ t.memW = s.memW ∧ t.memS = s.memS ∧ t.memC1 = s.memC1 ∧ t.memC0 = s.memC0 ∧
  t.cfg = s.cfg ∧ t.epoch = s.epoch

/-- `READY`, what waits and what has left are no part of the store. -/
theorem sameStore_update (s : State) (ready : Bool) (pending : List Transaction) (responses : List Word) :
    SameStore s { s with ready := ready, pending := pending, responses := responses } :=
  ⟨⟨rfl, rfl, rfl, rfl, rfl, rfl⟩, ⟨fun _ => rfl, fun _ => rfl, fun _ _ => rfl⟩, rfl, rfl, rfl, rfl, rfl, rfl⟩

/-- A LOAD to the control register sets `READY` and nothing else (20_memory.md R73). -/
theorem applyLoad_of_isControl (s : State) (g : LoadTarget) (h : isControl g = true) : ∃ v, applyLoad s g = s.setReady v := by
  cases g with
  | control v => exact ⟨v, rfl⟩
  | scalar | elemW | elemS | elemC1 | elemC0 => cases h

/-- Settles O9: while `READY = 1` a step that is no reset event idles, delivers a response, or loads the control register. -/
theorem readyStateIsFrozen : Obligations.ReadyStateIsFrozen := by
  unfold Obligations.ReadyStateIsFrozen
  intro s t hready hhead hstep
  change SameStore s t
  obtain rfl | ⟨v, rfl⟩ | ⟨g, -, hcontrol, rfl⟩ | ⟨hreset, -⟩ := step_next_cases s t hstep
  · exact sameStore_update t t.ready t.pending t.responses
  · exact sameStore_update s s.ready s.pending.tail (s.responses ++ [v])
  · obtain ⟨v, hv⟩ := applyLoad_of_isControl s.drop g (hcontrol hready)
    rw [hv]
    exact sameStore_update s v s.pending.tail s.responses
  · exact absurd hreset hhead

/-- Settles O14: a command that answers a next state has only delivered a response. -/
theorem commandsChangeNothingButTheResponse : Obligations.CommandsChangeNothingButTheResponse := by
  unfold Obligations.CommandsChangeNothingButTheResponse
  intro i s t h
  obtain ⟨v, rfl⟩ := exec_next i s t h
  obtain ⟨hscalars, helements, hW, hS, hC1, hC0, hcfg, hepoch⟩ := sameStore_update s s.ready s.pending (s.responses ++ [v])
  exact ⟨⟨v, rfl⟩, hscalars, helements, rfl, hcfg, hepoch, rfl, hW, hS, hC1, hC0⟩

end Sys2Proof.Machine
end

section
/-! The step as the service of the oldest transaction (10_state.md R41), and the state that reset leaves (R43). -/

namespace Sys2Proof

/-! ### The reserved command words -/

theorem opField_toNat (word : CommandWord) : (opField word).toNat = word.toNat / 2 ^ 64 / 2 := by
  have h := word.isLt
  simp only [opField, BitVec.extractLsb'_toNat, Nat.shiftRight_eq_div_pow]
  omega

theorem bField_toNat (word : CommandWord) : (bField word).toNat = word.toNat / 2 ^ 64 % 2 := by
  simp [bField, BitVec.extractLsb'_toNat, Nat.shiftRight_eq_div_pow]

/-- The opcode bits 001 are reserved (30_encoding.md R88). -/
theorem decode_of_top_one (word : CommandWord) (h : word.toNat / 2 ^ 64 = 1) : decode word = .error .reservedAccessB := by
  have hop : (opField word).toNat = 0 := by rw [opField_toNat, h]
  have hb : (bField word).toNat = 1 := by rw [bField_toNat, h]
  simp [decode, hop, hb]

/-- The opcode bits 110 and 111 are reserved (R87). -/
theorem decode_of_top_six_or_seven (word : CommandWord) (h : word.toNat / 2 ^ 64 = 6 ∨ word.toNat / 2 ^ 64 = 7) :
    decode word = .error .reservedOp := by
  have hop : (opField word).toNat = 3 := by
    rw [opField_toNat]
    omega
  simp [decode, hop]

end Sys2Proof

namespace Sys2Proof.Machine

/-! ### The oldest transaction -/

/-- A step serves the oldest transaction on the state without it. -/
theorem step_of_pending (s : State) (t : Transaction) (rest : List Transaction) (h : s.pending = t :: rest) :
    step s = serve t { s with pending := rest } := by
  simp [step, State.drop, h]

/-- Settles O6, one clause per kind of transaction. -/
theorem stepRunsTheDecodedCommand : Obligations.StepRunsTheDecodedCommand := by
  unfold Obligations.StepRunsTheDecodedCommand
  intro s rest
  refine ⟨?command, ?load, ?reset, ?reserved, ?idle⟩
  case command =>
    intro word i hp hd
    rw [step_of_pending s _ rest hp, serve_of_decode_ok word i _ hd]
  case load => exact fun space index data hp => step_of_pending s _ rest hp
  case reset => exact fun hp => step_of_pending s _ rest hp
  case reserved =>
    intro word hp
    rw [step_of_pending s _ rest hp]
    exact ⟨fun h => serve_of_decode_error word _ _ (decode_of_top_one word h),
      fun h => serve_of_decode_error word _ _ (decode_of_top_six_or_seven word h)⟩
  case idle =>
    intro hp
    simp [step, hp]

/-! ### The state after reset -/

/-- Settles O8: nothing is written after reset. -/
theorem resetStateIsWellFormed : Obligations.ResetStateIsWellFormed := by
  unfold Obligations.ResetStateIsWellFormed
  have hwith (c : Config) : WellFormedState (State.resetWith c) := wellFormedState_of_empty _ rfl rfl rfl rfl
  exact ⟨hwith Config.default, hwith⟩

theorem elemW_of_memW_nil (s : State) (v : Nat) (h : s.memW = []) : s.elemW v = Config.freeElem s.epoch 1 v := by
  simp [State.elemW, h, memGet]

theorem elemS_of_memS_nil (s : State) (v : Nat) (h : s.memS = []) : s.elemS v = Config.freeElem s.epoch 2 v := by
  simp [State.elemS, h, memGet]

theorem elemC_true_of_memC1_nil (s : State) (v : Nat) (h : s.memC1 = []) :
    s.elemC true v = (Config.freeElem s.epoch 3 v).truncate 32 := by
  simp [State.elemC, h, memGet]

theorem elemC_false_of_memC0_nil (s : State) (v : Nat) (h : s.memC0 = []) :
    s.elemC false v = (Config.freeElem s.epoch 4 v).truncate 32 := by
  simp [State.elemC, h, memGet]

@[simp] theorem resetWith_scalar (c : Config) (r : ScalarReg) : (State.resetWith c).scalar r = 0#64 := by
  cases r <;> rfl

@[simp] theorem resetEvent_scalar (s : State) (r : ScalarReg) : s.resetEvent.scalar r = 0#64 := by
  cases r <;> rfl

/-- Settles O10: the registers are zero and an element of an empty memory is a free value, after reset and after the reset event. -/
theorem resetClearsRegistersAndReady : Obligations.ResetClearsRegistersAndReady := by
  unfold Obligations.ResetClearsRegistersAndReady
  refine ⟨?afterReset, rfl, ?event⟩
  case afterReset =>
    intro c
    exact ⟨rfl, resetWith_scalar c, rfl, fun v => elemW_of_memW_nil _ v rfl, fun v => elemS_of_memS_nil _ v rfl,
      fun v => elemC_true_of_memC1_nil _ v rfl, fun v => elemC_false_of_memC0_nil _ v rfl⟩
  case event =>
    intro s rest hp
    exact ⟨_, step_of_pending s _ rest hp, rfl, resetEvent_scalar _, rfl, rfl, rfl, fun v => elemW_of_memW_nil _ v rfl,
      fun v => elemS_of_memS_nil _ v rfl, fun v => elemC_true_of_memC1_nil _ v rfl, fun v => elemC_false_of_memC0_nil _ v rfl⟩

end Sys2Proof.Machine
end

section
/-! Counting in a bit sequence: the position of the `m`-th bit of a value (10_state.md R37), and the number of 1-bits in a range of positions (R29). -/

namespace Sys2Proof.Machine

/-! ### The `m`-th occurrence -/

/-- A sought value at the head is the answer for `m = 1`, and one fewer to find otherwise. -/
theorem bitPosFrom_cons_self (b : Bool) (xs : List Bool) (m p : Nat) :
    bitPosFrom b (b :: xs) m p = if m = 1 then some p else bitPosFrom b xs (m - 1) (p + 1) := by
  simp [bitPosFrom]

/-- Another value at the head is passed over. -/
theorem bitPosFrom_cons_ne (b x : Bool) (xs : List Bool) (m p : Nat) (h : x ≠ b) :
    bitPosFrom b (x :: xs) m p = bitPosFrom b xs m (p + 1) := by
  simp [bitPosFrom, h]

/-- The scan from position `p` on answers `p + j`, where place `j` of the list holds `b` and `m - 1` places before it do. -/
theorem bitPosFrom_eq_some_iff (b : Bool) (xs : List Bool) (m p q : Nat) :
    bitPosFrom b xs m p = some q ↔ 1 ≤ m ∧ ∃ j, q = p + j ∧ xs[j]? = some b ∧ (xs.take j).count b = m - 1 := by
  induction xs generalizing m p with
  | nil => simp [bitPosFrom]
  | cons x xs ih =>
    rw [← Nat.or_exists_add_one]
    by_cases hx : x = b
    · subst hx
      rw [bitPosFrom_cons_self]
      by_cases hm : m = 1
      · simp [hm, eq_comm]
      · simp only [hm, if_false, ih, List.getElem?_cons_zero, List.getElem?_cons_succ, List.take_zero, List.take_succ_cons,
          List.count_nil, List.count_cons_self]
        constructor
        · rintro ⟨h1, j, rfl, hj, hcount⟩
          exact ⟨by omega, .inr ⟨j, by omega, hj, by omega⟩⟩
        · rintro ⟨h1, ⟨-, -, h0⟩ | ⟨j, rfl, hj, hcount⟩⟩
          · omega
          · exact ⟨by omega, j, by omega, hj, by omega⟩
    · rw [bitPosFrom_cons_ne b x xs m p hx, ih]
      simp [hx, Nat.add_assoc, Nat.add_comm 1]

/-- There is an `m`-th occurrence for `m` from 1 to the number of occurrences. -/
theorem exists_bitPosFrom_iff (b : Bool) (xs : List Bool) (m p : Nat) :
    (∃ q, bitPosFrom b xs m p = some q) ↔ 1 ≤ m ∧ m ≤ xs.count b := by
  induction xs generalizing m p with
  | nil =>
    simp only [bitPosFrom, List.count_nil, reduceCtorEq, exists_false, false_iff]
    omega
  | cons x xs ih =>
    by_cases hx : x = b
    · subst hx
      rw [bitPosFrom_cons_self, List.count_cons_self]
      by_cases hm : m = 1
      · simp [hm]
      · simp only [hm, if_false, ih]
        omega
    · rw [bitPosFrom_cons_ne b x xs m p hx, ih, List.count_cons_of_ne hx]

/-- Settles O33: the scan of the whole sequence starts at position 0. -/
theorem bitPosIsTheMthOccurrence : Obligations.BitPosIsTheMthOccurrence := by
  unfold Obligations.BitPosIsTheMthOccurrence
  intro B b m
  refine ⟨fun p => ?_, exists_bitPosFrom_iff b B m 0⟩
  simp [bitPos, bitPosFrom_eq_some_iff, rankOf]

/-! ### The 1-bits of a range -/

theorem ones_zero (B : List Bool) (hi : Nat) : ones B 0 hi = (B.take hi).count true := rfl

/-- The 1-bits before `hi` are those before `mid` and those from `mid` on. -/
theorem ones_zero_add (B : List Bool) (mid hi : Nat) (h : mid ≤ hi) : ones B 0 hi = ones B 0 mid + ones B mid hi := by
  have hsplit := congrArg (List.count true) (List.take_append_drop mid (B.take hi))
  rw [List.count_append, List.take_take, Nat.min_eq_left h] at hsplit
  exact hsplit.symm

/-- The 1-bits of adjacent ranges add up. -/
theorem ones_add (B : List Bool) (lo mid hi : Nat) (h : lo ≤ mid) (h' : mid ≤ hi) :
    ones B lo hi = ones B lo mid + ones B mid hi := by
  have h1 := ones_zero_add B lo mid h
  have h2 := ones_zero_add B mid hi h'
  have h3 := ones_zero_add B lo hi (h.trans h')
  omega

/-- A range holds at most as many 1-bits as positions. -/
theorem ones_le (B : List Bool) (lo hi : Nat) : ones B lo hi ≤ hi - lo := by
  refine List.count_le_length.trans ?_
  simp only [List.length_drop, List.length_take]
  omega

/-- Past the end of the sequence there is nothing to count. -/
theorem ones_of_length_le (B : List Bool) (lo hi : Nat) (h : B.length ≤ hi) : ones B lo hi = ones B lo B.length := by
  simp [ones, List.take_of_length_le h]

/-- What is no 1-bit before a position of the sequence is a 0-bit. -/
theorem rankOf_false_eq (B : List Bool) (i : Nat) (h : i ≤ B.length) : rankOf B false i = i - ones B 0 i := by
  have hsum := List.count_false_add_count_true (B.take i)
  rw [List.length_take_of_le h] at hsum
  rw [rankOf, ones_zero]
  omega

end Sys2Proof.Machine
end

section
/-! The metadata of a valid image: its block fields (10_state.md R28) and its cumulative counts (R44). -/

namespace Sys2Proof.Machine

/-! ### Block fields -/

/-- Settles O35: field `k` counts the 1-bits of the first `k + 1` blocks, so the next field adds those of one block. -/
theorem blockFieldsOfAValidImage : Obligations.BlockFieldsOfAValidImage := by
  unfold Obligations.BlockFieldsOfAValidImage
  intro B s sb hB hsb
  have hfield := hB.fieldsB sb hsb
  refine ⟨fun k hk => ?bound, fun k hk => ?next⟩
  case bound =>
    have hle := ones_le B (sb * 4096) (sb * 4096 + 512 * (k + 1))
    simp only [hfield k hk]
    omega
  case next =>
    have hadd := ones_add B (sb * 4096) (sb * 4096 + 512 * (k + 1)) (sb * 4096 + 512 * (k + 1 + 1)) (by omega) (by omega)
    have hle := ones_le B (sb * 4096 + 512 * (k + 1)) (sb * 4096 + 512 * (k + 1 + 1))
    simp only [hfield k (by omega), hfield (k + 1) (by omega)]
    omega

/-! ### Cumulative counts -/

/-- The number `CUM(sb, b)` stands for on an image of `B`; at `b = 0` the padding of the last superblock counts as zeros (10_state.md R44). -/
def cumCount (B : List Bool) (b : Bool) (sb : Nat) : Nat :=
  if b then ones B 0 (sb * 4096) else sb * 4096 - ones B 0 (sb * 4096)

/-- Each of the 4096 positions of one more superblock adds to the count of one value at most. -/
theorem cumCount_le_succ (B : List Bool) (b : Bool) (sb : Nat) : cumCount B b sb ≤ cumCount B b (sb + 1) := by
  have hadd := ones_zero_add B (sb * 4096) ((sb + 1) * 4096) (by omega)
  have hle := ones_le B (sb * 4096) ((sb + 1) * 4096)
  cases b with
  | true =>
    simp only [cumCount, if_true]
    omega
  | false =>
    simp only [cumCount, Bool.false_eq_true, if_false]
    omega

theorem cumCount_le (B : List Bool) (b : Bool) (sb : Nat) : cumCount B b sb ≤ sb * 4096 := by
  cases b with
  | true => exact ones_le B 0 (sb * 4096)
  | false => exact Nat.sub_le _ _

/-- The guard entry lies at or past the end of the sequence (00_scope.md R15). -/
theorem length_le_guardFor (n : Nat) : n ≤ guardFor n * 4096 := by
  simp only [guardFor, wordsFor, ceilDiv]
  omega

/-- Entries before the guard begin inside the sequence. -/
theorem superblock_le_length (n sb : Nat) (h : sb < guardFor n) : sb * 4096 ≤ n := by
  simp only [guardFor, wordsFor, ceilDiv] at h
  omega

/-- An image holds at most `2^44` bits (00_scope.md R8, 10_state.md R38). -/
theorem IsImage.length_le {B : List Bool} {s : State} (h : IsImage B s) : B.length ≤ 2 ^ 44 := by
  have hfits := h.fits
  have hconfig := h.config
  simp only [configOk, Bool.and_eq_true, decide_eq_true_eq] at hconfig
  simp only [nMax] at hfits
  omega

/-- Every entry of an image begins at a position far below `2^64`. -/
theorem IsImage.superblock_lt {B : List Bool} {s : State} (h : IsImage B s) (sb : Nat) (hsb : sb < entriesFor B.length) :
    sb * 4096 < 2 ^ 64 := by
  have hlength := h.length_le
  simp only [entriesFor, guardFor, wordsFor, ceilDiv] at hsb
  omega

/-- CUM1 on an image is the number of 1-bits before the superblock; the sum of R31 does not wrap. -/
theorem IsImage.cum1_eq {B : List Bool} {s : State} (h : IsImage B s) (sb : Nat) (hsb : sb < entriesFor B.length) :
    cum1 s sb = .ok (BitVec.ofNat 64 (ones B 0 (sb * 4096))) := by
  rw [← h.fieldsR sb hsb, BitVec.ofNat_add, BitVec.ofNat_toNat, BitVec.ofNat_toNat]
  simp [cum1, h.metaAt_ok sb hsb]

/-- CUM on an image is `cumCount`. -/
theorem IsImage.cum_eq {B : List Bool} {s : State} (h : IsImage B s) (b : Bool) (sb : Nat) (hsb : sb < entriesFor B.length) :
    cum s sb b = .ok (BitVec.ofNat 64 (cumCount B b sb)) := by
  have hlt := h.superblock_lt sb hsb
  have hle : ones B 0 (sb * 4096) ≤ sb * 4096 := ones_le B 0 (sb * 4096)
  cases b with
  | true => simp [cum, h.cum1_eq sb hsb, cumCount]
  | false =>
    simp only [cum, h.cum1_eq sb hsb, ok_bind, pure_eq_ok, cumCount, Bool.false_eq_true, if_false]
    congr 1
    bv_omega

/-- The number that CUM answers on an image. -/
theorem IsImage.toNat_cumCount {B : List Bool} {s : State} (h : IsImage B s) (b : Bool) (sb : Nat) (hsb : sb < entriesFor B.length) :
    (BitVec.ofNat 64 (cumCount B b sb)).toNat = cumCount B b sb := by
  rw [BitVec.toNat_ofNat]
  exact Nat.mod_eq_of_lt ((cumCount_le B b sb).trans_lt (h.superblock_lt sb hsb))

/-- The 1-bits before the guard entry are all of them. -/
theorem IsImage.oneCount_eq {B : List Bool} {s : State} (h : IsImage B s) :
    s.oneCount.toNat = cumCount B true (guardFor B.length) := by
  rw [h.oneCount]
  exact (ones_of_length_le B 0 _ (length_le_guardFor B.length)).symm

/-- Settles O36: every clause is a fact about `cumCount`, at the entry in question. -/
theorem cumulativeCountsOfAValidImage : Obligations.CumulativeCountsOfAValidImage := by
  unfold Obligations.CumulativeCountsOfAValidImage
  intro B s hB
  have hguard : guardFor B.length < entriesFor B.length := Nat.lt_succ_self _
  have hfirst : 0 < entriesFor B.length := Nat.succ_pos _
  refine ⟨?exact1, ?mono, ?first1, ?first0, ?guard1, ?guard0, ?exact0⟩
  case exact1 => exact fun sb hsb => ⟨_, hB.cum1_eq sb hsb, hB.toNat_cumCount true sb hsb⟩
  case mono =>
    intro b sb hsb
    refine ⟨_, _, hB.cum_eq b sb (by omega), hB.cum_eq b (sb + 1) hsb, ?_⟩
    rw [BitVec.le_def, hB.toNat_cumCount b sb (by omega), hB.toNat_cumCount b (sb + 1) hsb]
    exact cumCount_le_succ B b sb
  case first1 => exact hB.cum_eq true 0 hfirst
  case first0 => exact hB.cum_eq false 0 hfirst
  case guard1 => rw [hB.cum_eq true _ hguard, ← hB.oneCount_eq, BitVec.ofNat_toNat, BitVec.setWidth_eq]
  case guard0 =>
    have hones : s.oneCount.toNat = ones B 0 (guardFor B.length * 4096) := hB.oneCount_eq
    refine ⟨_, hB.cum_eq false _ hguard, ?_, ?_⟩
    · rw [hB.toNat_cumCount false _ hguard, hones]
      rfl
    · have hpad := length_le_guardFor B.length
      rw [BitVec.le_def, hB.toNat_cumCount false _ hguard, hB.zeroCount, ← hB.oneCount, hones]
      exact Nat.sub_le_sub_right hpad _
  case exact0 =>
    intro sb hsb
    have hin : sb < entriesFor B.length := hsb.trans hguard
    refine ⟨_, hB.cum_eq false sb hin, ?_⟩
    rw [hB.toNat_cumCount false sb hin, rankOf_false_eq B _ (superblock_le_length _ sb hsb)]
    rfl

end Sys2Proof.Machine
end

section
/-! The outcome of a command as a function of the architectural state (20_memory.md R68): no command reads what waits or what has left, so commands do not interact. -/

namespace Sys2Proof.Machine

/-! ### What no command reads -/

/-- `s` with other lists of what waits and what has left; its architectural state is that of `s`. -/
def State.withTraffic (s : State) (pending : List Transaction) (responses : List Word) : State :=
  { s with pending := pending, responses := responses }

/-- States that hold the same image differ in their traffic at most. -/
theorem SameImage.eq_withTraffic {s t : State} (h : SameImage s t) : t = s.withTraffic t.pending t.responses := by
  cases s
  cases t
  simp_all [SameImage, State.withTraffic]

section
variable (s : State) (p : List Transaction) (r : List Word)

@[simp] theorem withTraffic_cfg : (s.withTraffic p r).cfg = s.cfg := rfl
@[simp] theorem withTraffic_regN : (s.withTraffic p r).regN = s.regN := rfl
@[simp] theorem withTraffic_ready : (s.withTraffic p r).ready = s.ready := rfl
@[simp] theorem withTraffic_nsb : (s.withTraffic p r).nsb = s.nsb := rfl
@[simp] theorem withTraffic_total (b : Bool) : (s.withTraffic p r).total b = s.total b := rfl
@[simp] theorem withTraffic_lastPos (b : Bool) : (s.withTraffic p r).lastPos b = s.lastPos b := rfl
@[simp] theorem withTraffic_cacheLen (b : Bool) : (s.withTraffic p r).cacheLen b = s.cacheLen b := rfl
@[simp] theorem withTraffic_supported : (s.withTraffic p r).supported = s.supported := rfl
@[simp] theorem withTraffic_l0Term (sb : Nat) : (s.withTraffic p r).l0Term sb = s.l0Term sb := rfl
@[simp] theorem readW_withTraffic (v : Nat) : readW (s.withTraffic p r) v = readW s v := rfl
@[simp] theorem readS_withTraffic (v : Nat) : readS (s.withTraffic p r) v = readS s v := rfl
@[simp] theorem readC_withTraffic (b : Bool) (j : Nat) : readC (s.withTraffic p r) b j = readC s b j := rfl
@[simp] theorem clamp_withTraffic (i : Word) : clamp (s.withTraffic p r) i = clamp s i := rfl
@[simp] theorem bracketStart_withTraffic (b : Bool) (q : Nat) : bracketStart (s.withTraffic p r) b q = bracketStart s b q := rfl
@[simp] theorem bracketEnd_withTraffic (b : Bool) (q : Nat) : bracketEnd (s.withTraffic p r) b q = bracketEnd s b q := rfl

@[simp] theorem metaAt_withTraffic (sb : Nat) : metaAt (s.withTraffic p r) sb = metaAt s sb := by
  simp [metaAt]

@[simp] theorem cum_withTraffic (sb : Nat) (b : Bool) : cum (s.withTraffic p r) sb b = cum s sb b := by
  simp [cum, cum1]

@[simp] theorem wordSum_withTraffic (base word : Nat) : wordSum (s.withTraffic p r) base word = wordSum s base word := by
  induction word with
  | zero => rfl
  | succ k ih => simp [wordSum, ih]

@[simp] theorem rank1Fn_withTraffic (i : Word) : rank1Fn (s.withTraffic p r) i = rank1Fn s i := by
  simp [rank1Fn, partialSum]

@[simp] theorem wordSelFrom_withTraffic (base : Nat) (b : Bool) (n k : Nat) :
    wordSelFrom (s.withTraffic p r) base b n k = wordSelFrom s base b n k := by
  induction n generalizing k with
  | zero => rfl
  | succ n ih => simp [wordSelFrom, ih]

@[simp] theorem scan_withTraffic (t : Nat) (rem : Word) (b : Bool) : scan (s.withTraffic p r) t rem b = scan s t rem b := by
  simp [scan, wordSel]

@[simp] theorem bsearch_withTraffic (k : Word) (b : Bool) (fuel lo hi : Nat) :
    bsearch (s.withTraffic p r) k b fuel lo hi = bsearch s k b fuel lo hi := by
  induction fuel generalizing lo hi with
  | zero => rfl
  | succ fuel ih => simp [bsearch, ih]

@[simp] theorem locate_withTraffic (k : Word) (b : Bool) : locate (s.withTraffic p r) k b = locate s k b := by
  simp [locate, locateFar, locateByCache]

@[simp] theorem select_withTraffic (k : Word) (b : Bool) : select (s.withTraffic p r) k b = select s k b := by
  simp [select, selectGeneral]

end

/-! ### The outcome without the state -/

/-- The computation behind the shared front, per command (30_encoding.md R82). -/
def queryBody (i : Instr) (s : State) : Except Fault Word :=
  match i with
  | .access p => accessBit s p
  | .rank0 p => rank0Fn s (clamp s p)
  | .rank1 p => rank1Fn s (clamp s p)
  | .select0 k => select s k false
  | .select1 k => select s k true

theorem exec_eq_runQuery_queryBody (i : Instr) (s : State) : exec i s = runQuery s (queryBody i s) := by
  cases i <;> rfl

theorem queryBody_withTraffic (i : Instr) (s : State) (p : List Transaction) (r : List Word) :
    queryBody i (s.withTraffic p r) = queryBody i s := by
  cases i with
  | access i => simp [queryBody, accessBit]
  | rank0 i => simp [queryBody, rank0Fn]
  | rank1 i => simp [queryBody]
  | select0 k => simp [queryBody]
  | select1 k => simp [queryBody]

/-- What a command answers: the response word, the fault or the refusal. -/
def answer (i : Instr) (s : State) : Host.Outcome Word Fault Refusal :=
  if s.ready = false then .fault .notReady
  else if s.regN = 0#64 then .fault .empty
  else if s.supported = false then .refused .unsupportedConfig
  else match queryBody i s with
    | .ok v => .next v
    | .error f => .fault f

/-- The outcome in state `s` of a command that answers `a`. -/
def deliver (s : State) (a : Host.Outcome Word Fault Refusal) : Host.Outcome State Fault Refusal :=
  match a with
  | .next v => .next (s.respond v)
  | .fault f => .fault f
  | .refused r => .refused r

/-- A command delivers its answer and does nothing else. -/
theorem exec_eq_deliver (i : Instr) (s : State) : exec i s = deliver s (answer i s) := by
  rw [exec_eq_runQuery_queryBody]
  unfold runQuery answer
  split
  · rfl
  · split
    · rfl
    · split
      · rfl
      · cases queryBody i s <;> rfl

/-- The answer is a function of the image and the command. -/
theorem SameImage.answer_eq {s t : State} (h : SameImage s t) (i : Instr) : answer i s = answer i t := by
  rw [h.eq_withTraffic]
  simp [answer, queryBody_withTraffic]

theorem respond_injective (s : State) : Function.Injective s.respond := by
  intro v w h
  simpa using congrArg State.responses h

theorem deliver_eq_respond (s : State) (a : Host.Outcome Word Fault Refusal) (v : Word) :
    deliver s a = .next (s.respond v) ↔ a = .next v := by
  cases a <;> simp [deliver, (respond_injective s).eq_iff]

theorem deliver_eq_fault (s : State) (a : Host.Outcome Word Fault Refusal) (f : Fault) : deliver s a = .fault f ↔ a = .fault f := by
  cases a <;> simp [deliver]

theorem deliver_eq_refused (s : State) (a : Host.Outcome Word Fault Refusal) (r : Refusal) :
    deliver s a = .refused r ↔ a = .refused r := by
  cases a <;> simp [deliver]

/-- Settles O15: both outcomes deliver the one answer of the shared image. -/
theorem outcomeDependsOnTheImageAlone : Obligations.OutcomeDependsOnTheImageAlone := by
  unfold Obligations.OutcomeDependsOnTheImageAlone
  intro i s t h
  rw [exec_eq_deliver i s, exec_eq_deliver i t, h.answer_eq i]
  refine ⟨fun v => ?_, fun f => ?_, fun r => ?_⟩
  · rw [deliver_eq_respond, deliver_eq_respond]
  · rw [deliver_eq_fault, deliver_eq_fault]
  · rw [deliver_eq_refused, deliver_eq_refused]

/-! ### Lists of commands -/

theorem SameImage.refl (s : State) : SameImage s s := by
  simp [SameImage]

/-- The reply shows the answer, whatever has left before. -/
theorem replyOf_deliver (s t : State) (a : Host.Outcome Word Fault Refusal) :
    replyOf s (deliver s a) = replyOf t (deliver t a) := by
  cases a <;> simp [deliver, replyOf]

/-- A command, answered or not, leaves the image that was there (10_state.md R42; 60_exceptions.md R200). -/
theorem SameImage.stateAfter_deliver {s t : State} (h : SameImage s t) (a : Host.Outcome Word Fault Refusal) :
    SameImage s (stateAfter t (deliver t a)) := by
  cases a <;> exact h

/-- A word on the command port delivers one and the same answer in all states that hold the same image. -/
theorem SameImage.exists_serve_eq_deliver {s t : State} (h : SameImage s t) (word : CommandWord) :
    ∃ a, serve (.command word) s = deliver s a ∧ serve (.command word) t = deliver t a := by
  cases hd : decode word with
  | ok i =>
    refine ⟨answer i s, ?_, ?_⟩
    · rw [serve_of_decode_ok word i s hd, exec_eq_deliver]
    · rw [serve_of_decode_ok word i t hd, exec_eq_deliver, h.answer_eq i]
  | error e => exact ⟨.refused (refusalOf e), serve_of_decode_error word e s hd, serve_of_decode_error word e t hd⟩

/-- From any state that holds the image of `s`, commands get their replies on `s` and leave that image. -/
theorem SameImage.session_commands {s t : State} (h : SameImage s t) (words : List CommandWord) :
    (session t (words.map .command)).1 = words.map (fun w => replyOf s (serve (.command w) s)) ∧
    SameImage s (session t (words.map .command)).2 := by
  induction words generalizing t with
  | nil => exact ⟨rfl, h⟩
  | cons w ws ih =>
    obtain ⟨a, hs, ht⟩ := h.exists_serve_eq_deliver w
    obtain ⟨hreplies, himage⟩ := ih (h.stateAfter_deliver a)
    simp only [List.map_cons, session, ht, hs]
    exact ⟨congrArg₂ _ (replyOf_deliver t s a) hreplies, himage⟩

/-- Settles O16: the image stays that of the start, and a reply depends on the image alone. -/
theorem commandsDoNotInteract : Obligations.CommandsDoNotInteract := by
  unfold Obligations.CommandsDoNotInteract
  exact fun s words => (SameImage.refl s).session_commands words

end Sys2Proof.Machine
end

section
/-! The load port (20_memory.md R73): which LOADs are accepted, and what an accepted one writes. -/

namespace Sys2Proof.Machine

/-! ### The parts of a LOAD -/

theorem ushiftRight_eq_zero_iff (x : Word) (k : Nat) : x >>> k = 0#64 ↔ x.toNat < 2 ^ k := by
  rw [← BitVec.toNat_inj, BitVec.toNat_ushiftRight, Nat.shiftRight_eq_div_pow]
  exact Nat.div_eq_zero_iff_lt (Nat.two_pow_pos k)

theorem cacheData_of_lt (data : Word) (h : data.toNat < 2 ^ 32) : cacheData data = .ok (data.truncate 32) :=
  if_pos ((ushiftRight_eq_zero_iff data 32).2 h)

theorem cacheData_of_ge (data : Word) (h : 2 ^ 32 ≤ data.toNat) : cacheData data = .error .loadNonZeroBits :=
  if_neg (mt (ushiftRight_eq_zero_iff data 32).1 h.not_gt)

theorem scalarOfIndex_of_le (index : Nat) (h : index ≤ 5) : ∃ r, scalarOfIndex index = some r := by
  interval_cases index <;> exact ⟨_, rfl⟩

theorem scalarOfIndex_of_gt (index : Nat) (h : 5 < index) : scalarOfIndex index = none := by
  match index, h with
  | _ + 6, _ => rfl

theorem spaceOfCode_eq_reg_iff (space : BitVec 3) : spaceOfCode space = some .reg ↔ space = 0 := by
  revert space
  decide

theorem ne_six_of_scalarOfIndex (index : Word) (r : ScalarReg) (h : scalarOfIndex index.toNat = some r) : index ≠ 6#64 := by
  rintro rfl
  cases h

/-! ### The form rules, per space -/

section
variable (c : Config) (space : BitVec 3) (index data : Word)

theorem loadWf_reg (hspace : spaceOfCode space = some .reg) :
    loadWf c space index data = true ↔ index.toNat ≤ 5 ∨ index = 6 ∧ data.toNat < 2 := by
  simp [loadWf, hspace, ← BitVec.toNat_inj]

theorem loadWf_w (hspace : spaceOfCode space = some .w) : loadWf c space index data = true ↔ index.toNat < wDepth c := by
  simp [loadWf, hspace]

theorem loadWf_s (hspace : spaceOfCode space = some .s) : loadWf c space index data = true ↔ index.toNat < sDepth c := by
  simp [loadWf, hspace]

theorem loadWf_cache (hspace : spaceOfCode space = some .c1 ∨ spaceOfCode space = some .c0) :
    loadWf c space index data = true ↔ index.toNat < cacheDepth c ∧ data.toNat < 2 ^ 32 := by
  obtain hspace | hspace := hspace <;> simp [loadWf, hspace]

/-! ### What a LOAD decodes to -/

theorem decodeLoad_control (hspace : spaceOfCode space = some .reg) (hdata : data.toNat < 2) :
    decodeLoad c space 6 data = .ok (.control (data.getLsbD 0)) := by
  simp [decodeLoad, hspace, decodeRegLoad, (ushiftRight_eq_zero_iff data 1).2 hdata]

theorem decodeLoad_scalar (hspace : spaceOfCode space = some .reg) (r : ScalarReg) (hr : scalarOfIndex index.toNat = some r) :
    decodeLoad c space index data = .ok (.scalar r data) := by
  have hindex : index ≠ 6#64 := ne_six_of_scalarOfIndex index r hr
  simp [decodeLoad, hspace, decodeRegLoad, hindex, hr]

theorem decodeLoad_w (hspace : spaceOfCode space = some .w) (hindex : index.toNat < wDepth c) :
    decodeLoad c space index data = .ok (.elemW index.toNat data) := by
  simp [decodeLoad, hspace, hindex]

theorem decodeLoad_s (hspace : spaceOfCode space = some .s) (hindex : index.toNat < sDepth c) :
    decodeLoad c space index data = .ok (.elemS index.toNat data) := by
  simp [decodeLoad, hspace, hindex]

theorem decodeLoad_c1 (hspace : spaceOfCode space = some .c1) (hindex : index.toNat < cacheDepth c) (hdata : data.toNat < 2 ^ 32) :
    decodeLoad c space index data = .ok (.elemC1 index.toNat (data.truncate 32)) := by
  simp [decodeLoad, hspace, hindex, cacheData_of_lt data hdata]

theorem decodeLoad_c0 (hspace : spaceOfCode space = some .c0) (hindex : index.toNat < cacheDepth c) (hdata : data.toNat < 2 ^ 32) :
    decodeLoad c space index data = .ok (.elemC0 index.toNat (data.truncate 32)) := by
  simp [decodeLoad, hspace, hindex, cacheData_of_lt data hdata]

/-- A well-formed LOAD has a target, the control register exactly at index 6 of the register space. -/
theorem decodeLoad_of_loadWf (h : loadWf c space index data = true) :
    ∃ g, decodeLoad c space index data = .ok g ∧ (isControl g = true ↔ space = 0 ∧ index = 6) := by
  rw [← spaceOfCode_eq_reg_iff]
  cases hspace : spaceOfCode space with
  | none => simp [loadWf, hspace] at h
  | some sp =>
    cases sp with
    | reg =>
      obtain hscalar | ⟨rfl, hdata⟩ := (loadWf_reg c space index data hspace).1 h
      · obtain ⟨r, hr⟩ := scalarOfIndex_of_le _ hscalar
        have hindex : index ≠ 6#64 := ne_six_of_scalarOfIndex index r hr
        exact ⟨_, decodeLoad_scalar c space index data hspace r hr, by simp [isControl, hindex]⟩
      · exact ⟨_, decodeLoad_control c space data hspace hdata, by simp [isControl]⟩
    | w => exact ⟨_, decodeLoad_w c space index data hspace ((loadWf_w c space index data hspace).1 h), by simp [isControl]⟩
    | s => exact ⟨_, decodeLoad_s c space index data hspace ((loadWf_s c space index data hspace).1 h), by simp [isControl]⟩
    | c1 =>
      obtain ⟨hindex, hdata⟩ := (loadWf_cache c space index data (.inl hspace)).1 h
      exact ⟨_, decodeLoad_c1 c space index data hspace hindex hdata, by simp [isControl]⟩
    | c0 =>
      obtain ⟨hindex, hdata⟩ := (loadWf_cache c space index data (.inr hspace)).1 h
      exact ⟨_, decodeLoad_c0 c space index data hspace hindex hdata, by simp [isControl]⟩

/-- An ill-formed LOAD has no target, and the reason is its form. -/
theorem decodeLoad_of_not_loadWf (h : loadWf c space index data = false) :
    ∃ r, decodeLoad c space index data = .error r ∧ r ≠ .loadWhileReady := by
  rw [← Bool.not_eq_true] at h
  cases hspace : spaceOfCode space with
  | none => exact ⟨.loadReservedSpace, by simp [decodeLoad, hspace], by decide⟩
  | some sp =>
    cases sp with
    | reg =>
      rw [loadWf_reg c space index data hspace] at h
      by_cases hindex : index = 6#64
      · have hdata : ¬ data.toNat < 2 := by simpa [hindex] using h
        exact ⟨.loadNonZeroBits, by simp [decodeLoad, hspace, decodeRegLoad, hindex, ushiftRight_eq_zero_iff, hdata], by decide⟩
      · have hnone := scalarOfIndex_of_gt index.toNat (by omega)
        exact ⟨.loadReservedRegister, by simp [decodeLoad, hspace, decodeRegLoad, hindex, hnone], by decide⟩
    | w =>
      rw [loadWf_w c space index data hspace] at h
      exact ⟨.loadPastDepth, by simp [decodeLoad, hspace, h], by decide⟩
    | s =>
      rw [loadWf_s c space index data hspace] at h
      exact ⟨.loadPastDepth, by simp [decodeLoad, hspace, h], by decide⟩
    | c1 | c0 =>
      rw [loadWf_cache c space index data (by simp [hspace])] at h
      by_cases hindex : index.toNat < cacheDepth c
      · have hdata := cacheData_of_ge data (by omega)
        exact ⟨.loadNonZeroBits, by simp [decodeLoad, hspace, hindex, hdata], by decide⟩
      · exact ⟨.loadPastDepth, by simp [decodeLoad, hspace, hindex], by decide⟩

end

/-! ### Acceptance -/

section
variable (s : State) (space : BitVec 3) (index data : Word) (hconfig : configOk s.cfg = true)
include hconfig

theorem execLoad_of_decode_error (r : Refusal) (hd : decodeLoad s.cfg space index data = .error r) :
    execLoad space index data s = .refused r := by
  simp [execLoad, hconfig, hd]

theorem execLoad_while_ready (g : LoadTarget) (hd : decodeLoad s.cfg space index data = .ok g) (hready : s.ready = true)
    (hg : isControl g = false) : execLoad space index data s = .refused .loadWhileReady := by
  simp [execLoad, hconfig, hd, hready, hg]

theorem execLoad_accepted (g : LoadTarget) (hd : decodeLoad s.cfg space index data = .ok g)
    (h : s.ready = false ∨ isControl g = true) : execLoad space index data s = .next (applyLoad s g) := by
  have hpass : ¬ (s.ready = true ∧ isControl g = false) := by
    rintro ⟨hready, hg⟩
    simp [hready, hg] at h
  simp [execLoad, hconfig, hd, hpass]

end

/-- Settles O45: the form decides whether there is a target, and a target other than the control register waits for `READY = 0`. -/
theorem loadIsAcceptedOrRefusedByForm : Obligations.LoadIsAcceptedOrRefusedByForm := by
  unfold Obligations.LoadIsAcceptedOrRefusedByForm
  intro s space index data hconfig
  refine ⟨fun hill => ?refused, fun hwf => ?wellFormed⟩
  case refused =>
    obtain ⟨r, hd, hr⟩ := decodeLoad_of_not_loadWf _ _ _ _ hill
    exact ⟨r, execLoad_of_decode_error s space index data hconfig r hd, hr⟩
  case wellFormed =>
    obtain ⟨g, hd, hg⟩ := decodeLoad_of_loadWf _ _ _ _ hwf
    rw [← hg, Bool.not_eq_true]
    exact ⟨execLoad_while_ready s space index data hconfig g hd, fun h => ⟨_, execLoad_accepted s space index data hconfig g hd h⟩⟩

/-! ### What an accepted LOAD writes -/

/-- A store to the memories alone keeps the registers, `READY` and what is outside. -/
theorem memories_update_frame (s : State) (W S : Mem 64) (C1 C0 : Mem 32) :
    let t := { s with memW := W, memS := S, memC1 := C1, memC0 := C0 }
    SameScalars s t ∧ t.ready = s.ready ∧ SameOutside s t :=
  ⟨⟨rfl, rfl, rfl, rfl, rfl, rfl⟩, rfl, ⟨rfl, rfl, rfl, rfl⟩⟩

theorem toNat_truncate_of_lt (data : Word) (h : data.toNat < 2 ^ 32) : (data.truncate 32).toNat = data.toNat := by
  rw [BitVec.truncate_eq_setWidth, BitVec.toNat_setWidth, Nat.mod_eq_of_lt h]

/-- Settles O42: an accepted LOAD is one write to its memory. -/
theorem loadWritesOneElement : Obligations.LoadWritesOneElement := by
  unfold Obligations.LoadWritesOneElement
  intro s index data hconfig hready
  refine ⟨fun hindex => ?w, fun hindex => ?s, fun hindex hdata => ?c1, fun hindex hdata => ?c0⟩
  case w =>
    have hd := decodeLoad_w s.cfg 1 index data rfl hindex
    exact ⟨_, execLoad_accepted s 1 index data hconfig _ hd (.inl hready), fun j => elemW_setW s _ j _, fun _ => rfl, fun _ _ => rfl,
      memories_update_frame s _ _ _ _⟩
  case s =>
    have hd := decodeLoad_s s.cfg 2 index data rfl hindex
    exact ⟨_, execLoad_accepted s 2 index data hconfig _ hd (.inl hready), fun j => elemS_setS s _ j _, fun _ => rfl, fun _ _ => rfl,
      memories_update_frame s _ _ _ _⟩
  case c1 =>
    have hd := decodeLoad_c1 s.cfg 3 index data rfl hindex hdata
    refine ⟨_, execLoad_accepted s 3 index data hconfig _ hd (.inl hready), fun b j => ?_, fun _ => rfl, fun _ => rfl,
      memories_update_frame s _ _ _ _⟩
    rw [applyLoad, elemC_setC1, apply_ite BitVec.toNat, toNat_truncate_of_lt data hdata]
  case c0 =>
    have hd := decodeLoad_c0 s.cfg 4 index data rfl hindex hdata
    refine ⟨_, execLoad_accepted s 4 index data hconfig _ hd (.inl hready), fun b j => ?_, fun _ => rfl, fun _ => rfl,
      memories_update_frame s _ _ _ _⟩
    rw [applyLoad, elemC_setC0, apply_ite BitVec.toNat, toNat_truncate_of_lt data hdata]

/-- A scalar register is no part of the memories. -/
theorem sameElements_setScalar (s : State) (r : ScalarReg) (v : Word) : SameElements s (s.setScalar r v) := by
  simp [SameElements, State.elemW, State.elemS, State.elemC]

theorem sameOutside_setScalar (s : State) (r : ScalarReg) (v : Word) : SameOutside s (s.setScalar r v) := by
  simp [SameOutside]

/-- Settles O43: each of the six indices names its register, and an accepted LOAD is one write to it. -/
theorem loadWritesOneRegister : Obligations.LoadWritesOneRegister := by
  unfold Obligations.LoadWritesOneRegister
  intro s data index r hconfig hready hlist
  have hr : scalarOfIndex (BitVec.ofNat 64 index).toNat = some r :=
    (show ∀ e ∈ _, scalarOfIndex (BitVec.ofNat 64 e.1).toNat = some e.2 by decide) (index, r) hlist
  have hd := decodeLoad_scalar s.cfg 0 (BitVec.ofNat 64 index) data rfl r hr
  exact ⟨_, execLoad_accepted s 0 _ data hconfig _ hd (.inl hready), setScalar_scalar_self s r data,
    fun q hq => setScalar_scalar_other s r q data hq, sameElements_setScalar s r data, setScalar_ready s r data,
    sameOutside_setScalar s r data⟩

end Sys2Proof.Machine
end

section
/-! The command word: the three high bits are the command, the low 64 the operand (30_encoding.md R81 to R88, R91). -/

namespace Sys2Proof

/-! ### The fields of a word and the number of an encoding -/

theorem commandWord_top_lt (word : CommandWord) : word.toNat / 2 ^ 64 < 8 := by
  have h := word.isLt
  omega

theorem argField_eq (word : CommandWord) : argField word = BitVec.ofNat 64 (word.toNat % 2 ^ 64) := by
  apply BitVec.eq_of_toNat_eq
  simp [argField, BitVec.extractLsb'_toNat]

theorem argField_toNat (word : CommandWord) : (argField word).toNat = word.toNat % 2 ^ 64 := by
  rw [argField_eq, BitVec.toNat_ofNat, Nat.mod_mod]

/-- R91 for all five commands at once: the opcode bits times `2^64`, plus the operand. -/
theorem encode_toNat (i : Instr) : (encode i).toNat = (opcodeOf i).toNat * 2 ^ 64 + i.arg.toNat := by
  rw [encode, BitVec.toNat_append, ← Nat.shiftLeft_add_eq_or_of_lt i.arg.isLt, Nat.shiftLeft_eq]

theorem encode_eq_iff (i : Instr) (word : CommandWord) :
    encode i = word ↔ word.toNat / 2 ^ 64 = (opcodeOf i).toNat ∧ argField word = i.arg := by
  have harg := i.arg.isLt
  rw [← BitVec.toNat_inj, ← BitVec.toNat_inj, encode_toNat, argField_toNat]
  omega

/-! ### The decoder as the inverse of the encoder -/

/-- A word whose high bits are the opcode of `i` and whose low bits are its operand decodes to `i`. -/
theorem decode_of_opcode (i : Instr) (word : CommandWord) (htop : word.toNat / 2 ^ 64 = (opcodeOf i).toNat)
    (harg : argField word = i.arg) : decode word = .ok i := by
  have hop : (opField word).toNat = (opcodeOf i).toNat / 2 := by rw [opField_toNat, htop]
  have hb : (bField word).toNat = (opcodeOf i).toNat % 2 := by rw [bField_toNat, htop]
  cases i <;> simp [decode, hop, hb, harg, opcodeOf, Instr.arg]

/-- Each of the decoder's five accepting branches fixes the two opcode fields, and with them the three high bits. -/
theorem opcode_of_decode (word : CommandWord) (i : Instr) (h : decode word = .ok i) :
    word.toNat / 2 ^ 64 = (opcodeOf i).toNat ∧ argField word = i.arg := by
  have hop := opField_toNat word
  have hb := bField_toNat word
  have htop := commandWord_top_lt word
  unfold decode at h
  split at h <;> cases h
  all_goals
    refine ⟨?_, rfl⟩
    simp only [opcodeOf, BitVec.reduceToNat]
    grind

theorem decode_eq_ok_iff (word : CommandWord) (i : Instr) : decode word = .ok i ↔ encode i = word := by
  rw [encode_eq_iff]
  exact ⟨opcode_of_decode word i, fun ⟨htop, harg⟩ => decode_of_opcode i word htop harg⟩

theorem commandWf_iff (word : CommandWord) :
    commandWf word = true ↔ word.toNat / 2 ^ 64 ≠ 1 ∧ word.toNat / 2 ^ 64 ≠ 6 ∧ word.toNat / 2 ^ 64 ≠ 7 := by
  simp [commandWf, and_assoc]

/-- Settles O2: both directions of `decode_eq_ok_iff`. -/
theorem decodeInvertsEncode : Obligations.DecodeInvertsEncode := by
  unfold Obligations.DecodeInvertsEncode
  exact ⟨fun i _ => (decode_eq_ok_iff (encode i) i).2 rfl, fun word i => (decode_eq_ok_iff word i).1⟩

/-- Settles O3: one entry of the opcode map for each value of the three high bits; a word that is not reserved has one of the five opcodes. -/
theorem decoderIsTheOpcodeMap : Obligations.DecoderIsTheOpcodeMap := by
  unfold Obligations.DecoderIsTheOpcodeMap
  intro word arg
  have harg : argField word = arg := argField_eq word
  have htop := commandWord_top_lt word
  have haccess (h : word.toNat / 2 ^ 64 = 0) := decode_of_opcode (.access arg) word h harg
  have hrank0 (h : word.toNat / 2 ^ 64 = 2) := decode_of_opcode (.rank0 arg) word h harg
  have hrank1 (h : word.toNat / 2 ^ 64 = 3) := decode_of_opcode (.rank1 arg) word h harg
  have hselect0 (h : word.toNat / 2 ^ 64 = 4) := decode_of_opcode (.select0 arg) word h harg
  have hselect1 (h : word.toNat / 2 ^ 64 = 5) := decode_of_opcode (.select1 arg) word h harg
  refine ⟨haccess, decode_of_top_one word, hrank0, hrank1, hselect0, hselect1,
    fun h => decode_of_top_six_or_seven word (.inl h), fun h => decode_of_top_six_or_seven word (.inr h), htop, ?_⟩
  rw [commandWf_iff]
  constructor
  · rintro ⟨h1, h6, h7⟩
    obtain h | h | h | h | h : word.toNat / 2 ^ 64 = 0 ∨ word.toNat / 2 ^ 64 = 2 ∨ word.toNat / 2 ^ 64 = 3 ∨
      word.toNat / 2 ^ 64 = 4 ∨ word.toNat / 2 ^ 64 = 5 := by omega
    · exact ⟨_, haccess h⟩
    · exact ⟨_, hrank0 h⟩
    · exact ⟨_, hrank1 h⟩
    · exact ⟨_, hselect0 h⟩
    · exact ⟨_, hselect1 h⟩
  · rintro ⟨i, hi⟩
    rw [(opcode_of_decode word i hi).1]
    cases i <;> simp [opcodeOf]

/-- Settles O1, by running the decoder on the ten words. -/
theorem tableWordsDecodeAsWritten : Obligations.TableWordsDecodeAsWritten := by
  unfold Obligations.TableWordsDecodeAsWritten
  decide

end Sys2Proof

namespace Sys2Proof.Machine

/-- A refused transaction is answered by its refusal and leaves the state as it was (60_exceptions.md R200). -/
theorem session_of_refused (s : State) (t : Transaction) (r : Refusal) (h : serve t s = .refused r) :
    session s [t] = ([.refused r], s) := by
  simp [session, h, replyOf, stateAfter]

/-- Settles O5: the decoder refuses the word, and a refusal is all that the session shows of it. -/
theorem reservedWordsAreRefused : Obligations.ReservedWordsAreRefused := by
  unfold Obligations.ReservedWordsAreRefused
  intro s word
  constructor
  · intro h
    have hserve := serve_of_decode_error word _ s (decode_of_top_one word h)
    exact ⟨hserve, session_of_refused s _ _ hserve⟩
  · intro h
    have hserve := serve_of_decode_error word _ s (decode_of_top_six_or_seven word h)
    exact ⟨hserve, session_of_refused s _ _ hserve⟩

end Sys2Proof.Machine
end

section
/-! The driver's text (30_encoding.md R90, R91): decimal numbers read back, and a line splits into the words it was written from. -/

namespace Sys2Proof.Machine

/-! ### Decimal numbers -/

theorem digitOf_digitChar (d : Nat) (h : d < 10) : digitOf (Char.ofNat ('0'.toNat + d)) = some d := by
  interval_cases d <;> decide

theorem digitChar_ne_space (d : Nat) (h : d < 10) : Char.ofNat ('0'.toNat + d) ≠ ' ' := by
  interval_cases d <;> decide

theorem readDigits_digitChar (acc d : Nat) (h : d < 10) (tail : List Char) :
    readDigits acc (Char.ofNat ('0'.toNat + d) :: tail) = readDigits (acc * 10 + d) tail := by
  rw [readDigits, digitOf_digitChar d h]

/-- Reading the digits of a number leaves that number as what has been read so far. -/
theorem readDigits_digitsOnto (fuel n : Nat) (tail : List Char) (h : n < 10 ^ fuel) :
    readDigits 0 (digitsOnto fuel n tail) = readDigits n tail := by
  induction fuel generalizing n tail with
  | zero =>
    obtain rfl : n = 0 := by omega
    rfl
  | succ fuel ih =>
    rw [digitsOnto]
    split
    next hn => rw [readDigits_digitChar 0 n hn, Nat.zero_mul, Nat.zero_add]
    next =>
      rw [ih (n / 10) _ (by omega), readDigits_digitChar _ _ (Nat.mod_lt n (by decide)), Nat.div_add_mod']

/-- A word of a line: a non-empty run of characters other than the space (log 24). -/
abbrev IsTextWord (w : List Char) : Prop := w ≠ [] ∧ ' ' ∉ w

/-- Digits put ahead of a text without spaces give a word, when there is at least one digit or the text is not empty. -/
theorem isTextWord_digitsOnto (fuel n : Nat) (tail : List Char) (hne : fuel ≠ 0 ∨ tail ≠ []) (h : ' ' ∉ tail) :
    IsTextWord (digitsOnto fuel n tail) := by
  induction fuel generalizing n tail with
  | zero => exact ⟨hne.resolve_left (by simp), h⟩
  | succ fuel ih =>
    have hcons (d : Nat) (hd : d < 10) : ' ' ∉ Char.ofNat ('0'.toNat + d) :: tail :=
      List.not_mem_cons_of_ne_of_not_mem (digitChar_ne_space d hd).symm h
    rw [digitsOnto]
    split
    next hn => exact ⟨List.cons_ne_nil _ _, hcons n hn⟩
    next => exact ih _ _ (.inr (List.cons_ne_nil _ _)) (hcons _ (Nat.mod_lt n (by decide)))

theorem isTextWord_decimal (v : Word) : IsTextWord (decimal v) :=
  isTextWord_digitsOnto 20 v.toNat [] (.inl (by decide)) List.not_mem_nil

theorem readNumber_of_digits (cs : List Char) (v : Word) (hne : cs ≠ []) (h : readDigits 0 cs = some v.toNat) :
    readNumber cs = some v := by
  cases cs with
  | nil => exact absurd rfl hne
  | cons c cs => simp [readNumber, h, v.isLt]

/-- The decimal text of a word reads back as that word. -/
theorem readNumber_decimal (v : Word) : readNumber (decimal v) = some v := by
  have hfuel : v.toNat < 10 ^ 20 := v.isLt.trans (by decide)
  exact readNumber_of_digits _ v (isTextWord_decimal v).1 (readDigits_digitsOnto 20 v.toNat [] hfuel)

/-! ### The words of a line -/

theorem splitWords_cons_of_ne (cur rest : List Char) (c : Char) (h : c ≠ ' ') :
    splitWords cur (c :: rest) = splitWords (cur ++ [c]) rest := by
  cases cur <;> rw [splitWords, if_neg h]

theorem splitWords_cons_space (c : Char) (cur rest : List Char) :
    splitWords (c :: cur) (' ' :: rest) = (c :: cur) :: splitWords [] rest := by
  rw [splitWords, if_pos rfl]

/-- Characters other than the space extend the run under way. -/
theorem splitWords_append (cur w rest : List Char) (h : ' ' ∉ w) : splitWords cur (w ++ rest) = splitWords (cur ++ w) rest := by
  induction w generalizing cur with
  | nil => simp
  | cons c w ih =>
    obtain ⟨hc, hw⟩ := List.ne_and_not_mem_of_not_mem_cons h
    rw [List.cons_append, splitWords_cons_of_ne _ _ _ hc.symm, ih _ hw, List.append_assoc, List.singleton_append]

theorem splitWords_last (w : List Char) (h : IsTextWord w) : splitWords [] w = [w] := by
  obtain ⟨hne, hspace⟩ := h
  obtain ⟨c, cs, rfl⟩ := List.exists_cons_of_ne_nil hne
  simpa [splitWords] using splitWords_append [] (c :: cs) [] hspace

theorem splitWords_space (w rest : List Char) (h : IsTextWord w) : splitWords [] (w ++ ' ' :: rest) = w :: splitWords [] rest := by
  obtain ⟨hne, hspace⟩ := h
  obtain ⟨c, cs, rfl⟩ := List.exists_cons_of_ne_nil hne
  rw [splitWords_append [] _ _ hspace, List.nil_append, splitWords_cons_space]

/-- A line of an operation and an operand (R90). -/
theorem parseLine_two (op : List Char) (v : Word) (hop : IsTextWord op) :
    parseLine (op ++ ' ' :: decimal v) = parseWords [op, decimal v] := by
  rw [parseLine, splitWords_space op _ hop, splitWords_last _ (isTextWord_decimal v)]

/-- A line of an operation, a bit and an operand (R90). -/
theorem parseLine_three (op : List Char) (b : Char) (v : Word) (hop : IsTextWord op) (hb : IsTextWord [b]) :
    parseLine (op ++ ' ' :: ([b] ++ ' ' :: decimal v)) = parseWords [op, [b], decimal v] := by
  rw [parseLine, splitWords_space op _ hop, splitWords_space [b] _ hb, splitWords_last _ (isTextWord_decimal v)]

/-! ### The five forms of a line -/

/-- The text of a command is a line of two or of three words, which `parseWords` reads as that command. -/
theorem parseLine_driverText (i : Instr) : parseLine (driverText i) = some i := by
  cases i with
  | access p => exact (parseLine_two "access".toList p (by decide)).trans (by simp [parseWords, readNumber_decimal])
  | rank0 p => exact (parseLine_three "rank".toList '0' p (by decide) (by decide)).trans (by simp [parseWords, readNumber_decimal])
  | rank1 p => exact (parseLine_three "rank".toList '1' p (by decide) (by decide)).trans (by simp [parseWords, readNumber_decimal])
  | select0 k => exact (parseLine_three "select".toList '0' k (by decide) (by decide)).trans (by simp [parseWords, readNumber_decimal])
  | select1 k => exact (parseLine_three "select".toList '1' k (by decide) (by decide)).trans (by simp [parseWords, readNumber_decimal])

/-- Settles O4: a line assembles to the encoding of the command it reads back as, whose number is the opcode bits above the operand. -/
theorem driverTextAssembles : Obligations.DriverTextAssembles := by
  unfold Obligations.DriverTextAssembles
  constructor
  · intro i
    have hparse := parseLine_driverText i
    exact ⟨hparse, by rw [assemble, hparse, Option.map_some]⟩
  · intro p
    exact ⟨encode_toNat (.access p), encode_toNat (.rank0 p), encode_toNat (.rank1 p), encode_toNat (.select0 p),
      encode_toNat (.select1 p)⟩

end Sys2Proof.Machine
end

section
/-! The metadata entry (10_state.md R27; 40_access.md R103 to R105): its fields and its two words determine each other. -/

namespace Sys2Proof.Machine

/-! ### The fields as numbers -/

theorem toNat_fieldR (m1 : Word) : (fieldR m1).toNat = m1.toNat / 2 ^ 20 := by
  rw [fieldR, BitVec.toNat_ushiftRight, Nat.shiftRight_eq_div_pow]

/-- A 12-bit field that lies inside one word. -/
theorem toNat_shift_and_fff (m : Word) (k : Nat) : ((m >>> k) &&& 0xFFF#64).toNat = m.toNat / 2 ^ k % 2 ^ 12 := by
  rw [BitVec.toNat_and, BitVec.toNat_ushiftRight, Nat.shiftRight_eq_div_pow]
  exact Nat.and_two_pow_sub_one_eq_mod _ 12

theorem toNat_fieldB_zero (m1 m2 : Word) : (fieldB m1 m2 0).toNat = m1.toNat / 2 ^ 8 % 2 ^ 12 := toNat_shift_and_fff m1 8

/-- The field that straddles the two words: its high 8 bits end `m1`, its low 4 bits begin `m2` (R104). -/
theorem toNat_fieldB_one (m1 m2 : Word) : (fieldB m1 m2 1).toNat = m1.toNat % 2 ^ 8 * 16 + m2.toNat / 2 ^ 60 := by
  have hlow : m2.toNat / 2 ^ 60 < 2 ^ 4 := by omega
  have hhigh : (m1 &&& 0xFF#64).toNat = m1.toNat % 2 ^ 8 := Nat.and_two_pow_sub_one_eq_mod _ 8
  have hshift : ((m1 &&& 0xFF#64) <<< 4).toNat = (m1.toNat % 2 ^ 8) <<< 4 := by
    rw [BitVec.toNat_shiftLeft, hhigh, Nat.shiftLeft_eq]
    omega
  rw [fieldB, BitVec.toNat_or, hshift, BitVec.toNat_ushiftRight, Nat.shiftRight_eq_div_pow,
    ← Nat.shiftLeft_add_eq_or_of_lt hlow, Nat.shiftLeft_eq]

theorem toNat_fieldB_add_two (m1 m2 : Word) (k : Nat) : (fieldB m1 m2 (k + 2)).toNat = m2.toNat / 2 ^ (12 * k) % 2 ^ 12 :=
  toNat_shift_and_fff m2 (12 * k)

theorem toNat_fieldR_lt (m1 : Word) : (fieldR m1).toNat < 2 ^ 44 := by
  rw [toNat_fieldR]
  omega

theorem toNat_fieldB_lt (m1 m2 : Word) (k : Nat) : (fieldB m1 m2 k).toNat < 2 ^ 12 := by
  match k with
  | 0 =>
    rw [toNat_fieldB_zero]
    exact Nat.mod_lt _ (by decide)
  | 1 =>
    rw [toNat_fieldB_one]
    omega
  | k + 2 =>
    rw [toNat_fieldB_add_two]
    exact Nat.mod_lt _ (by decide)

/-! ### From the fields to the words and back -/

section
variable (r : Nat) (b : Nat → Nat) (hr : r < 2 ^ 44) (hb : ∀ k < 7, b k < 2 ^ 12)
include hb

include hr in
/-- Fields within their widths do not overlap in the first word. -/
theorem toNat_entryM1 : (entryM1 r b).toNat = r * 2 ^ 20 + b 0 * 2 ^ 8 + b 1 / 16 := by
  have h0 := hb 0 (by decide)
  have h1 := hb 1 (by decide)
  rw [entryM1, BitVec.toNat_ofNat]
  omega

/-- Nor do they in the second. -/
theorem toNat_entryM2 :
    (entryM2 b).toNat = b 1 % 16 * 2 ^ 60 + b 6 * 2 ^ 48 + b 5 * 2 ^ 36 + b 4 * 2 ^ 24 + b 3 * 2 ^ 12 + b 2 := by
  have h2 := hb 2 (by decide)
  have h3 := hb 3 (by decide)
  have h4 := hb 4 (by decide)
  have h5 := hb 5 (by decide)
  have h6 := hb 6 (by decide)
  rw [entryM2, BitVec.toNat_ofNat]
  omega

include hr

theorem toNat_fieldR_entry : (fieldR (entryM1 r b)).toNat = r := by
  have h0 := hb 0 (by decide)
  have h1 := hb 1 (by decide)
  rw [toNat_fieldR, toNat_entryM1 r b hr hb]
  omega

theorem toNat_fieldB_entry (k : Nat) (hk : k < 7) : (fieldB (entryM1 r b) (entryM2 b) k).toNat = b k := by
  have h0 := hb 0 (by decide)
  have h1 := hb 1 (by decide)
  have h2 := hb 2 (by decide)
  have h3 := hb 3 (by decide)
  have h4 := hb 4 (by decide)
  have h5 := hb 5 (by decide)
  have h6 := hb 6 (by decide)
  match k, hk with
  | 0, _ =>
    rw [toNat_fieldB_zero, toNat_entryM1 r b hr hb]
    omega
  | 1, _ =>
    rw [toNat_fieldB_one, toNat_entryM1 r b hr hb, toNat_entryM2 b hb]
    omega
  | k + 2, hk =>
    have hk5 : k < 5 := by omega
    rw [toNat_fieldB_add_two, toNat_entryM2 b hb]
    interval_cases k <;> simp only [Nat.reduceAdd, Nat.reduceMul] <;> omega

end

theorem entryM1_fields (m1 m2 : Word) : entryM1 (fieldR m1).toNat (fun k => (fieldB m1 m2 k).toNat) = m1 := by
  apply BitVec.eq_of_toNat_eq
  rw [toNat_entryM1 _ _ (toNat_fieldR_lt m1) (fun k _ => toNat_fieldB_lt m1 m2 k), toNat_fieldR, toNat_fieldB_zero, toNat_fieldB_one]
  omega

theorem entryM2_fields (m1 m2 : Word) : entryM2 (fun k => (fieldB m1 m2 k).toNat) = m2 := by
  apply BitVec.eq_of_toNat_eq
  rw [toNat_entryM2 _ (fun k _ => toNat_fieldB_lt m1 m2 k)]
  simp only [toNat_fieldB_one, toNat_fieldB_add_two]
  omega

/-- Settles O34: the fields of an encoded tuple are the tuple, and the encoding of a pair's fields is the pair. -/
theorem entryEncodingIsABijection : Obligations.EntryEncodingIsABijection := by
  unfold Obligations.EntryEncodingIsABijection
  constructor
  · exact fun r b hr hb => ⟨toNat_fieldR_entry r b hr hb, toNat_fieldB_entry r b hr hb⟩
  · exact fun m1 m2 => ⟨toNat_fieldR_lt m1, fun k _ => toNat_fieldB_lt m1 m2 k, entryM1_fields m1 m2, entryM2_fields m1 m2⟩

end Sys2Proof.Machine
end

section
/-! ACCESS (40_access.md R101): the word it reads is in range, and the bit it answers is the bit of the sequence. -/

namespace Sys2Proof.Machine

/-! ### Commands in a queryable state -/

theorem IsImage.queryable {B : List Bool} {s : State} (h : IsImage B s) (hready : s.ready = true) : Queryable s :=
  ⟨hready, h.regN_ne, h.supported⟩

/-- Where the block can be queried, the word a command computes is the word it answers. -/
theorem Queryable.answers {s : State} (hq : Queryable s) (i : Instr) (v : Word) (h : queryBody i s = .ok v) : Answers s i v := by
  obtain ⟨hready, hn, hsupported, -⟩ := hq
  rw [Answers, exec_eq_runQuery_queryBody, h, runQuery_ok s v hready hn hsupported]

/-- Every word that holds a bit of `0..N-1` can be read (20_memory.md R60). -/
theorem Queryable.readW_ok {s : State} (hq : Queryable s) (v : Nat) (hv : v * 64 < s.regN.toNat) : readW s v = .ok (s.elemW v) := by
  obtain ⟨-, -, -, hfits⟩ := hq
  have hdepth := (lengths_fit s.cfg s.regN.toNat hfits).1
  have hin : v < wordsFor s.regN.toNat := by
    simp only [wordsFor, ceilDiv]
    omega
  exact Machine.readW_ok s v hin (hin.trans_le hdepth)

/-! ### The bit -/

/-- BIT as a number (R100). -/
theorem bitOf_eq (w : Word) (j : Nat) : bitOf w j = BitVec.ofNat 64 (w.getLsbD j).toNat := by
  rw [bitOf, BitVec.and_one_eq_setWidth_ofBool_getLsbD, BitVec.getLsbD_ushiftRight, Nat.add_zero]
  cases w.getLsbD j <;> rfl

theorem accessBit_of_le (s : State) (i : Word) (h : s.regN ≤ i) : accessBit s i = .error .accessRange := if_pos h

theorem Queryable.accessBit_eq {s : State} (hq : Queryable s) (i : Word) (hi : i < s.regN) :
    accessBit s i = .ok (BitVec.ofNat 64 ((s.elemW (i.toNat / 64)).getLsbD (i.toNat % 64)).toNat) := by
  have hword : (i >>> 6).toNat = i.toNat / 64 := by rw [BitVec.toNat_ushiftRight, Nat.shiftRight_eq_div_pow]
  have hbit : (i &&& 63#64).toNat = i.toNat % 64 := and_sixtyThree i.toNat
  have hread := hq.readW_ok (i.toNat / 64) (by bv_omega)
  rw [accessBit, if_neg (BitVec.not_le.mpr hi), hword, hbit, hread, ok_bind, pure_eq_ok, bitOf_eq]

/-- The words of an image hold its bits (10_state.md R30). -/
theorem IsImage.getElem?_eq {B : List Bool} {s : State} (h : IsImage B s) (i : Nat) (hi : i < B.length) :
    B[i]? = some ((s.elemW (i / 64)).getLsbD (i % 64)) := by
  have hin : i / 64 < wordsFor B.length := by
    simp only [wordsFor, ceilDiv]
    omega
  rw [h.words _ hin _ (Nat.mod_lt i (by decide)), Nat.div_add_mod, List.getElem?_eq_getElem hi, Option.getD_some]

/-- ACCESS on an image answers `B[i]`. -/
theorem IsImage.answers_access {B : List Bool} {s : State} (h : IsImage B s) (hready : s.ready = true) (i : Word) (hi : i < s.regN) :
    ∃ b, B[i.toNat]? = some b ∧ Answers s (.access i) (BitVec.ofNat 64 b.toNat) := by
  have hq := h.queryable hready
  have hlt : i.toNat < B.length := by
    rw [← h.regN]
    exact hi
  exact ⟨_, h.getElem?_eq i.toNat hlt, hq.answers _ _ (hq.accessBit_eq i hi)⟩

/-- Settles O17: the shared front tests V1 and V2, the computation of ACCESS tests V3 and reads the bit. -/
theorem accessAnswersTheBit : Obligations.AccessAnswersTheBit := by
  unfold Obligations.AccessAnswersTheBit
  intro s i
  refine ⟨?notReady, ?empty, ?range, ?bit, fun B hB hready hi => hB.answers_access hready i hi⟩
  case notReady =>
    intro hready
    simp [exec_eq_runQuery_queryBody, runQuery, hready]
  case empty =>
    intro hready hn
    simp [exec_eq_runQuery_queryBody, runQuery, hready, hn]
  case range =>
    intro hready hn hsupported hi
    rw [exec_eq_runQuery_queryBody, queryBody, accessBit_of_le s i hi, runQuery_error s _ hready hn hsupported]
  case bit => exact fun hq hi => hq.answers _ _ (hq.accessBit_eq i hi)

end Sys2Proof.Machine
end

section
/-! RANK1 on a valid image (41_rank.md R126, R131): each term of the sum counts the 1-bits of a range of positions, and the ranges are adjacent. -/

namespace Sys2Proof.Machine

/-! ### 1-bits of words and of sequences -/

/-- One more position adds its bit to the count; a position past the end adds nothing. -/
theorem ones_zero_succ (B : List Bool) (hi : Nat) : ones B 0 (hi + 1) = ones B 0 hi + ((B[hi]?).getD false).toNat := by
  rw [ones_zero, ones_zero, List.take_add_one, List.count_append]
  congr 1
  cases h : B[hi]? with
  | none => rfl
  | some b => cases b <;> rfl

theorem ones_succ (B : List Bool) (lo hi : Nat) (h : lo ≤ hi) : ones B lo (hi + 1) = ones B lo hi + ((B[hi]?).getD false).toNat := by
  have hnext := ones_zero_succ B hi
  have hrange := ones_zero_add B lo hi h
  have hrange' := ones_zero_add B lo (hi + 1) (h.trans (Nat.le_succ hi))
  omega

/-- The low bits of a word that holds the bits of a sequence from position `lo` on count its 1-bits from there. -/
theorem popcountBelow_eq_ones (B : List Bool) (x : Word) (lo n : Nat) (h : ∀ j < n, x.getLsbD j = (B[lo + j]?).getD false) :
    popcountBelow x n = ones B lo (lo + n) := by
  induction n with
  | zero => simp [popcountBelow, ones]
  | succ n ih =>
    rw [popcountBelow, ih (fun j hj => h j (by omega)), h n (Nat.lt_succ_self n), ← Nat.add_assoc, ones_succ B lo (lo + n) (Nat.le_add_right lo n)]

/-- The mask of PARTIAL has the low `bit` bits set and no other (R125). -/
theorem getLsbD_lowMask (bit j : Nat) (hbit : bit < 64) : ((1#64 <<< bit) - 1#64).getLsbD j = decide (j < bit) := by
  have hlt : 2 ^ bit < 2 ^ 64 := Nat.pow_lt_pow_right (by decide) hbit
  have hpos : 0 < 2 ^ bit := Nat.two_pow_pos bit
  have hmask : ((1#64 <<< bit) - 1#64).toNat = 2 ^ bit - 1 := by
    rw [← BitVec.twoPow_eq, BitVec.toNat_sub, BitVec.toNat_twoPow_of_lt hbit]
    simp only [BitVec.toNat_ofNat]
    omega
  rw [BitVec.getLsbD, hmask, Nat.testBit_two_pow_sub_one]

/-- Counting under the mask stops at `bit`. -/
theorem popcountBelow_and_lowMask (x : Word) (bit n : Nat) (hbit : bit < 64) :
    popcountBelow (x &&& ((1#64 <<< bit) - 1#64)) n = popcountBelow x (min n bit) := by
  induction n with
  | zero => rw [Nat.zero_min]; rfl
  | succ n ih =>
    rw [popcountBelow, ih, BitVec.getLsbD_and, getLsbD_lowMask bit n hbit]
    by_cases hn : n < bit
    · rw [Nat.min_eq_left hn.le, Nat.min_eq_left hn, popcountBelow]
      simp [hn]
    · rw [Nat.min_eq_right (by omega), Nat.min_eq_right (by omega)]
      simp [hn]

/-- The masked popcount counts the 1-bits below `bit` (R125). -/
theorem popcount_and_lowMask (x : Word) (bit : Nat) (hbit : bit < 64) :
    popcount (x &&& ((1#64 <<< bit) - 1#64)) = popcountBelow x bit := by
  rw [popcount, popcountBelow_and_lowMask x bit 64 hbit, Nat.min_eq_right hbit.le]

/-! ### Where a position lies -/

theorem coord_blk_lt (i : Word) : (coord i).blk < 8 := by
  rw [coord_blk]
  exact Nat.mod_lt _ (by decide)

theorem coord_bit_lt (i : Word) : (coord i).bit < 64 := by
  rw [coord_bit]
  exact Nat.mod_lt _ (by decide)

/-- The first position of the block of `i`. -/
theorem blockBase_coord (i : Word) : 64 * blockBase (coord i).sb (coord i).blk = (coord i).sb * 4096 + 512 * (coord i).blk := by
  rw [blockBase]
  omega

/-- The word of `i` is word `i / 64` of `W` (R124). -/
theorem blockBase_add_word (i : Word) : blockBase (coord i).sb (coord i).blk + (coord i).word = i.toNat / 64 := by
  rw [blockBase, coord_sb, coord_blk, coord_word]
  omega

theorem superblock_lt_entriesFor (n i : Nat) (hi : i ≤ n) : i / 4096 < entriesFor n := by
  simp only [entriesFor, guardFor, wordsFor, ceilDiv]
  omega

theorem word_le_wordsFor (n i : Nat) (hi : i ≤ n) : i / 64 ≤ wordsFor n := by
  simp only [wordsFor, ceilDiv]
  omega

theorem word_lt_wordsFor (n i : Nat) (hi : i ≤ n) (hbit : i % 64 ≠ 0) : i / 64 < wordsFor n := by
  simp only [wordsFor, ceilDiv]
  omega

/-! ### The terms of the sum -/

section
variable {B : List Bool} {s : State} (h : IsImage B s)
include h

/-- The low bits of a word in use count the 1-bits of the sequence from the word's first position on. -/
theorem IsImage.popcountBelow_elemW (v n : Nat) (hv : v < wordsFor B.length) (hn : n ≤ 64) :
    popcountBelow (s.elemW v) n = ones B (64 * v) (64 * v + n) :=
  popcountBelow_eq_ones B _ _ n (fun j hj => h.words v hv j (hj.trans_le hn))

/-- The whole words of a block count the 1-bits from the block's first position on. -/
theorem IsImage.sum_popcount_elemW (base word : Nat) (hword : base + word ≤ wordsFor B.length) :
    ((List.range word).map (fun k => popcount (s.elemW (base + k)))).sum = ones B (64 * base) (64 * (base + word)) := by
  induction word with
  | zero => simp [ones]
  | succ k ih =>
    rw [List.range_succ, List.map_append, List.sum_append, ih (by omega), List.map_singleton, List.sum_singleton, popcount,
      h.popcountBelow_elemW (base + k) 64 (by omega) (by decide)]
    exact (ones_add B _ (64 * (base + k)) _ (by omega) (by omega)).symm

/-- WORDSUM on an image. -/
theorem IsImage.wordSum_eq (base word : Nat) (hword : base + word ≤ wordsFor B.length) :
    wordSum s base word = .ok (BitVec.ofNat 64 (ones B (64 * base) (64 * (base + word)))) := by
  rw [wordSum_ok s base word (fun k hk => h.readW_ok (base + k) (by omega)), h.sum_popcount_elemW base word hword]

/-- PARTIAL on an image; at bit 0 there may be no word to read. -/
theorem IsImage.partialSum_eq (base word bit : Nat) (hbit : bit < 64) (hword : bit ≠ 0 → base + word < wordsFor B.length) :
    partialSum s base word bit = .ok (BitVec.ofNat 64 (ones B (64 * (base + word)) (64 * (base + word) + bit))) := by
  by_cases h0 : bit = 0
  · subst h0
    simp [partialSum_zero, ones]
  · rw [partialSum_ok s base word bit h0 (h.readW_ok _ (hword h0)), popcount_and_lowMask _ bit hbit,
      h.popcountBelow_elemW _ bit (hword h0) hbit.le]

/-- PREFIX_BLOCK on an image. -/
theorem IsImage.prefixBlock_eq (sb blk : Nat) (hsb : sb < entriesFor B.length) (hblk : blk < 8) :
    prefixBlock (s.elemS (2 * sb)) (s.elemS (2 * sb + 1)) blk = BitVec.ofNat 64 (ones B (sb * 4096) (sb * 4096 + 512 * blk)) := by
  cases blk with
  | zero => simp [prefixBlock, ones]
  | succ k => rw [prefixBlock, ← h.fieldsB sb hsb k (by omega), BitVec.ofNat_toNat, BitVec.setWidth_eq]

/-- The entry's count and the L0 term on an image. -/
theorem IsImage.fieldR_add_l0Term (sb : Nat) (hsb : sb < entriesFor B.length) :
    fieldR (s.elemS (2 * sb)) + s.l0Term sb = BitVec.ofNat 64 (ones B 0 (sb * 4096)) := by
  rw [← h.fieldsR sb hsb, BitVec.ofNat_add, BitVec.ofNat_toNat, BitVec.ofNat_toNat, BitVec.setWidth_eq, BitVec.setWidth_eq]

/-- RANK1FN on an image: the ranges of its terms, put together, are the positions before `i` (R131). -/
theorem IsImage.rank1Fn_eq (i : Word) (hi : i.toNat ≤ B.length) : rank1Fn s i = .ok (BitVec.ofNat 64 (ones B 0 i.toNat)) := by
  have hsb : (coord i).sb < entriesFor B.length := by
    rw [coord_sb]
    exact superblock_lt_entriesFor B.length i.toNat hi
  have hword := blockBase_add_word i
  have hblock := blockBase_coord i
  have hend : 64 * (i.toNat / 64) + (coord i).bit = i.toNat := by rw [coord_bit, Nat.div_add_mod]
  have hwhole := h.wordSum_eq (blockBase (coord i).sb (coord i).blk) (coord i).word
    (by rw [hword]; exact word_le_wordsFor B.length i.toNat hi)
  have hpart := h.partialSum_eq (blockBase (coord i).sb (coord i).blk) (coord i).word (coord i).bit (coord_bit_lt i)
    (by rw [hword, coord_bit]; exact word_lt_wordsFor B.length i.toNat hi)
  rw [hword] at hwhole hpart
  rw [hend] at hpart
  have hlast := ones_add B (64 * blockBase (coord i).sb (coord i).blk) (64 * (i.toNat / 64)) i.toNat (by omega) (by omega)
  have hsuper := ones_add B ((coord i).sb * 4096) (64 * blockBase (coord i).sb (coord i).blk) i.toNat (by omega) (by omega)
  have hall := ones_zero_add B ((coord i).sb * 4096) i.toNat (by omega)
  simp only [rank1Fn, h.metaAt_ok _ hsb, hwhole, hpart, ok_bind, pure_eq_ok, h.fieldR_add_l0Term _ hsb,
    h.prefixBlock_eq _ _ hsb (coord_blk_lt i), ← BitVec.ofNat_add, ← hblock, hall, hsuper, hlast, Nat.add_assoc]

end

/-! ### The response -/

/-- RANK1 at a position up to `N` of an image (R128, R131). -/
theorem IsImage.answers_rank1 {B : List Bool} {s : State} (h : IsImage B s) (hready : s.ready = true) (i : Word) (hi : i ≤ s.regN) :
    Answers s (.rank1 i) (BitVec.ofNat 64 (ones B 0 i.toNat)) := by
  have hlength : i.toNat ≤ B.length := by
    rw [← h.regN]
    exact hi
  refine (h.queryable hready).answers _ _ ?_
  rw [queryBody, clamp_of_le s i hi, h.rank1Fn_eq i hlength]

end Sys2Proof.Machine
end

section
/-! The loader's metadata pass (70_reset_and_hazards.md R219 to R232): its totals, and the lengths of what it appends. -/

namespace Sys2Proof.Machine

/-! ### Packed words -/

theorem testBit_bitsToNat (bs : List Bool) (j : Nat) : (bitsToNat bs).testBit j = (bs[j]?).getD false := by
  induction bs generalizing j with
  | nil => simp [bitsToNat]
  | cons b bs ih =>
    rw [bitsToNat, Nat.add_comm, ← Nat.bit_val]
    cases j with
    | zero => simp
    | succ j => simp [Nat.testBit_bit_succ, ih]

/-- Bit `j` of word `v` is `B[64*v + j]`, zero past the end (R218). -/
theorem getLsbD_packWord (B : List Bool) (v j : Nat) (hj : j < 64) : (packWord B v).getLsbD j = (B[64 * v + j]?).getD false := by
  rw [packWord, BitVec.getLsbD_ofNat, testBit_bitsToNat, List.getElem?_take_of_lt hj, List.getElem?_drop]
  simp [hj]

/-- A packed word counts the 1-bits of its 64 positions. -/
theorem popcount_packWord (B : List Bool) (v : Nat) : popcount (packWord B v) = ones B (64 * v) (64 * (v + 1)) :=
  popcountBelow_eq_ones B _ (64 * v) 64 (getLsbD_packWord B v)

/-! ### What each action leaves alone -/

/-- FOLD changes the entry under construction only (R225). -/
theorem foldField_frame (blk val : Nat) (u : Builder) : ∃ m1 m2, foldField blk val u = { u with m1 := m1, m2 := m2 } := by
  match blk with
  | 0 | 1 | _ + 2 => exact ⟨_, _, rfl⟩

theorem fillFields_frame (k : Nat) (u : Builder) : ∃ m1 m2, fillFields k u = { u with m1 := m1, m2 := m2 } := by
  induction k generalizing u with
  | zero => exact ⟨_, _, rfl⟩
  | succ k ih =>
    obtain ⟨m1, m2, hfold⟩ := foldField_frame (6 - k) u.sbOnes u
    rw [fillFields, hfold]
    exact ih _

theorem foldBlock_frame (v : Nat) (u : Builder) : ∃ m1 m2, foldBlock v u = { u with m1 := m1, m2 := m2 } := by
  unfold foldBlock
  split
  · exact foldField_frame _ _ u
  · exact ⟨_, _, rfl⟩

theorem fillLast_frame (n v : Nat) (u : Builder) : ∃ m1 m2, fillLast n v u = { u with m1 := m1, m2 := m2 } := by
  unfold fillLast
  split
  · exact fillFields_frame _ u
  · exact ⟨_, _, rfl⟩

/-- The commit appends an entry or leaves the entries as they are, and keeps totals and caches (R228, R229). -/
theorem commit_frame (c : Config) (n v : Nat) (u : Builder) : ∃ sbOnes l0Run m1 m2 l0Ones,
    commit c n v u = { u with
      sbOnes := sbOnes, l0Run := l0Run, m1 := m1, m2 := m2, l0Ones := l0Ones
      entries := if v % 64 = 63 ∨ v + 1 = wordsFor n then u.entries ++ [u.m1, u.m2] else u.entries } := by
  unfold commit
  split
  · unfold snapshot
    split <;> exact ⟨_, _, _, _, _, rfl⟩
  · exact ⟨_, _, _, _, _, rfl⟩

/-- What one word adds: its bits to the totals, one superblock number to a cache at most, one entry at a commit. -/
theorem passWord_frame (c : Config) (n v : Nat) (w : Word) (u : Builder) :
    (passWord c n v w u).oneCount = u.oneCount + popcount w ∧
    (passWord c n v w u).zeroCount = u.zeroCount + (validBits n v - popcount w) ∧
    (passWord c n v w u).c1 = appendOnCross c.d u.oneCount (u.oneCount + popcount w) v u.c1 ∧
    (passWord c n v w u).c0 = appendOnCross c.d u.zeroCount (u.zeroCount + (validBits n v - popcount w)) v u.c0 ∧
    (passWord c n v w u).entries.length = u.entries.length + if v % 64 = 63 ∨ v + 1 = wordsFor n then 2 else 0 := by
  obtain ⟨m1, m2, hblock⟩ := foldBlock_frame v (accumulate w (countAndCache c n v w u))
  obtain ⟨m1', m2', hlast⟩ := fillLast_frame n v { accumulate w (countAndCache c n v w u) with m1 := m1, m2 := m2 }
  obtain ⟨_, _, _, _, _, hcommit⟩ := commit_frame c n v { accumulate w (countAndCache c n v w u) with m1 := m1', m2 := m2' }
  rw [passWord, hblock, hlast, hcommit]
  refine ⟨rfl, rfl, rfl, rfl, ?_⟩
  dsimp only
  split
  · exact List.length_append
  · rfl

/-! ### The totals -/

/-- The two counts before a position add up to the number of positions there are. -/
theorem ones_add_rankOf_false (B : List Bool) (i : Nat) : ones B 0 i + rankOf B false i = min i B.length := by
  rw [ones_zero, rankOf, Nat.add_comm, List.count_false_add_count_true, List.length_take]

theorem ones_le_length_take (B : List Bool) (lo hi : Nat) : ones B lo hi ≤ min hi B.length - lo := by
  refine List.count_le_length.trans (Nat.le_of_eq ?_)
  rw [List.length_drop, List.length_take]

theorem validBits_le (n v : Nat) : validBits n v ≤ 64 := by
  unfold validBits
  split
  · exact Nat.le_refl 64
  · simp only [wordsFor, ceilDiv]
    omega

/-- The valid bits of a word in use are its positions in the sequence (R220). -/
theorem validBits_eq (n v : Nat) (hv : v < wordsFor n) : validBits n v = min (64 * (v + 1)) n - min (64 * v) n := by
  unfold validBits
  split
  all_goals
    simp only [wordsFor, ceilDiv] at *
    omega

theorem passWords_oneCount (c : Config) (B : List Bool) (k : Nat) : (passWords c B k).oneCount = rankOf B true (64 * k) := by
  induction k with
  | zero => rfl
  | succ k ih =>
    obtain ⟨hone, -⟩ := passWord_frame c B.length k (packWord B k) (passWords c B k)
    rw [passWords, hone, ih, popcount_packWord]
    exact (ones_zero_add B (64 * k) (64 * (k + 1)) (by omega)).symm

theorem passWords_zeroCount (c : Config) (B : List Bool) (k : Nat) (hk : k ≤ wordsFor B.length) :
    (passWords c B k).zeroCount = rankOf B false (64 * k) := by
  induction k with
  | zero => rfl
  | succ k ih =>
    obtain ⟨-, hzero, -⟩ := passWord_frame c B.length k (packWord B k) (passWords c B k)
    rw [passWords, hzero, ih (Nat.le_of_succ_le hk), popcount_packWord, validBits_eq _ _ hk]
    have hbefore := ones_add_rankOf_false B (64 * k)
    have hafter := ones_add_rankOf_false B (64 * (k + 1))
    have hword := ones_zero_add B (64 * k) (64 * (k + 1)) (by omega)
    have hle := ones_le_length_take B (64 * k) (64 * (k + 1))
    omega

/-! ### The lengths -/

/-- A count that grows by at most `D` crosses one multiple of `D` at most, so the cache keeps one entry per multiple. -/
theorem length_appendOnCross (d before step v : Nat) (cache : List CacheEntry) (hd : 0 < d) (hstep : step ≤ d) (hlength : cache.length = before / d) :
    (appendOnCross d before (before + step) v cache).length = (before + step) / d := by
  have hnext : (before + d) / d = before / d + 1 := Nat.add_div_right before (by omega)
  have hmono : before / d ≤ (before + step) / d := Nat.div_le_div_right (by omega)
  have hstep' : (before + step) / d ≤ (before + d) / d := Nat.div_le_div_right (by omega)
  unfold appendOnCross
  split
  · rw [List.length_append, hlength, List.length_singleton]
    omega
  · omega

/-- `C1` and `C0` get `floor(count/D)` entries (R226). -/
theorem passWords_length_caches (c : Config) (B : List Bool) (k : Nat) (hd : 64 ≤ c.d) :
    (passWords c B k).c1.length = (passWords c B k).oneCount / c.d ∧ (passWords c B k).c0.length = (passWords c B k).zeroCount / c.d := by
  induction k with
  | zero => simp [passWords, Builder.start]
  | succ k ih =>
    obtain ⟨ih1, ih0⟩ := ih
    obtain ⟨hone, hzero, hc1, hc0, -⟩ := passWord_frame c B.length k (packWord B k) (passWords c B k)
    rw [passWords, hone, hzero, hc1, hc0]
    have hones := popcount_le (packWord B k)
    have hvalid := validBits_le B.length k
    exact ⟨length_appendOnCross _ _ _ _ _ (by omega) (by omega) ih1, length_appendOnCross _ _ _ _ _ (by omega) (by omega) ih0⟩

/-- One pair of words per superblock begun, once the pass is over (R228). -/
theorem passWords_length_entries (c : Config) (B : List Bool) (k : Nat) (hk : k ≤ wordsFor B.length) :
    (passWords c B k).entries.length = 2 * if k = wordsFor B.length then ceilDiv k 64 else k / 64 := by
  induction k with
  | zero => simp [passWords, Builder.start, ceilDiv]
  | succ k ih =>
    obtain ⟨-, -, -, -, hentries⟩ := passWord_frame c B.length k (packWord B k) (passWords c B k)
    rw [passWords, hentries, ih (Nat.le_of_succ_le hk), if_neg (by omega), ceilDiv]
    split <;> split <;> omega

end Sys2Proof.Machine
end

section
/-! The loader's transactions (70_reset_and_hazards.md R217): each is accepted, and together they leave the built image in the block. -/

namespace Sys2Proof.Machine

/-! ### Runs that serve a list of transactions -/

/-- `s` with another list of what waits. -/
def State.withPending (s : State) (pending : List Transaction) : State := { s with pending := pending }

/-- Serving `seq` takes the block from `s` to `t`, one step per transaction, whatever waits behind it; what waits in `s` and `t` themselves does not count. -/
def ServesTo (s : State) (seq : List Transaction) (t : State) : Prop :=
  ∀ rest, Host.Core.run Sys2Proof.core seq.length (s.withPending (seq ++ rest)) = .next (t.withPending rest)

theorem run_succ (n : Nat) (s t : State) (h : Sys2Proof.core.step s = .next t) :
    Host.Core.run Sys2Proof.core (n + 1) s = Host.Core.run Sys2Proof.core n t := by
  simp only [Host.Core.run, h]

/-- A run that gets to `t` in `m` steps goes on from there. -/
theorem run_add (m n : Nat) (s t : State) (h : Host.Core.run Sys2Proof.core m s = .next t) :
    Host.Core.run Sys2Proof.core (m + n) s = Host.Core.run Sys2Proof.core n t := by
  induction m generalizing s with
  | zero =>
    injection h with h
    rw [Nat.zero_add, h]
  | succ m ih =>
    cases hstep : Sys2Proof.core.step s with
    | next s' =>
      rw [run_succ m s s' hstep] at h
      rw [Nat.add_right_comm, run_succ _ s s' hstep, ih s' h]
    | fault f => simp [Host.Core.run, hstep] at h
    | refused r => simp [Host.Core.run, hstep] at h

theorem ServesTo.append {s t u : State} {a b : List Transaction} (hab : ServesTo s a t) (hbu : ServesTo t b u) :
    ServesTo s (a ++ b) u := by
  intro rest
  rw [List.length_append, List.append_assoc, run_add _ _ _ _ (hab (b ++ rest))]
  exact hbu rest

/-- What waits is untouched by a LOAD's effect. -/
theorem applyLoad_withPending (s : State) (g : LoadTarget) (rest : List Transaction) :
    applyLoad (s.withPending rest) g = (applyLoad s g).withPending rest := by
  cases g with
  | scalar r v => cases r <;> rfl
  | control | elemW | elemS | elemC1 | elemC0 => rfl

/-- An accepted LOAD is served in one step. -/
theorem servesTo_load (s : State) (space : BitVec 3) (index data : Word) (g : LoadTarget) (hconfig : configOk s.cfg = true)
    (hd : decodeLoad s.cfg space index data = .ok g) (h : s.ready = false ∨ isControl g = true) :
    ServesTo s [.load space index data] (applyLoad s g) := by
  intro rest
  have haccepted := execLoad_accepted (s.withPending rest) space index data hconfig g hd h
  rw [applyLoad_withPending] at haccepted
  exact run_succ 0 _ _ ((step_of_pending (s.withPending _) (.load space index data) rest rfl).trans haccepted)

theorem servesTo_loadReg_control (s : State) (v : Bool) (hconfig : configOk s.cfg = true) :
    ServesTo s [loadReg 6 v.toNat] (s.setReady v) := by
  have hd := decodeLoad_control s.cfg (codeOfSpace .reg) (BitVec.ofNat 64 v.toNat) rfl (by cases v <;> decide)
  have hbit : (BitVec.ofNat 64 v.toNat).getLsbD 0 = v := by cases v <;> rfl
  rw [hbit] at hd
  exact servesTo_load s _ _ _ _ hconfig hd (.inr rfl)

/-! ### Runs of LOADs -/

/-- Serving `seq` takes the block from `s₀` to `s`, where `READY = 0` and the next LOAD is accepted as it would have been at the start. -/
structure LoadsTo (s₀ : State) (seq : List Transaction) (s : State) : Prop where
  serves : ServesTo s₀ seq s
  cfg : s.cfg = s₀.cfg
  ready : s.ready = false

theorem applyLoad_ready (s : State) (g : LoadTarget) (h : isControl g = false) : (applyLoad s g).ready = s.ready := by
  cases g with
  | control v => cases h
  | scalar r v => exact setScalar_ready s r v
  | elemW | elemS | elemC1 | elemC0 => rfl

section
variable {s₀ s : State} {seq : List Transaction} (h : LoadsTo s₀ seq s) (hconfig : configOk s₀.cfg = true)
include h hconfig

/-- One more LOAD, to anything but the control register. -/
theorem LoadsTo.load (space : BitVec 3) (index data : Word) (g : LoadTarget) (hd : decodeLoad s₀.cfg space index data = .ok g)
    (hg : isControl g = false) : LoadsTo s₀ (seq ++ [.load space index data]) (applyLoad s g) := by
  have hload : ServesTo s [.load space index data] (applyLoad s g) := by
    rw [← h.cfg] at hconfig hd
    exact servesTo_load s space index data g hconfig hd (.inl h.ready)
  refine ⟨h.serves.append hload, ?_, ?_⟩
  · rw [applyLoad_cfg, h.cfg]
  · rw [applyLoad_ready s g hg, h.ready]

theorem LoadsTo.loadReg_scalar (index v : Nat) (r : ScalarReg) (hr : scalarOfIndex (BitVec.ofNat 64 index).toNat = some r) :
    LoadsTo s₀ (seq ++ [loadReg index v]) (s.setScalar r (BitVec.ofNat 64 v)) :=
  h.load hconfig _ _ _ (.scalar r (BitVec.ofNat 64 v)) (decodeLoad_scalar _ _ _ _ rfl r hr) rfl

end

/-! ### Memories -/

/-- A memory after stores to consecutive elements, from index `i` on. -/
def memSetAll {k : Nat} (m : Mem k) (i : Nat) : List (BitVec k) → Mem k
  | [] => m
  | v :: vs => memSetAll (memSet m i v) (i + 1) vs

theorem memGet_memSetAll_of_lt {k : Nat} (vs : List (BitVec k)) (m : Mem k) (i j : Nat) (h : j < i) :
    memGet (memSetAll m i vs) j = memGet m j := by
  induction vs generalizing m i with
  | nil => rfl
  | cons v vs ih => rw [memSetAll, ih _ _ (by omega), memGet_memSet_ne _ _ _ _ (by omega)]

/-- Each of the consecutive elements holds its value. -/
theorem memGet_memSetAll {k : Nat} (vs : List (BitVec k)) (m : Mem k) (i j : Nat) (x : BitVec k) (h : vs[j]? = some x) :
    memGet (memSetAll m i vs) (i + j) = some x := by
  induction vs generalizing m i j with
  | nil => simp at h
  | cons v vs ih =>
    cases j with
    | zero =>
      obtain rfl : v = x := by simpa using h
      exact (memGet_memSetAll_of_lt vs _ (i + 1) i (Nat.lt_succ_self i)).trans (memGet_memSet_self m i v)
    | succ j =>
      rw [memSetAll, Nat.add_left_comm, Nat.add_comm j]
      exact ih _ _ _ h

/-- `s` with `vs` stored over the first elements of `W`. -/
def State.storeW (s : State) (vs : List Word) : State := { s with memW := memSetAll s.memW 0 vs }

/-- `s` with `vs` stored over the first elements of `S`. -/
def State.storeS (s : State) (vs : List Word) : State := { s with memS := memSetAll s.memS 0 vs }

/-- `s` with `vs` stored over the first elements of `C1`. -/
def State.storeC1 (s : State) (vs : List CacheEntry) : State := { s with memC1 := memSetAll s.memC1 0 vs }

/-- `s` with `vs` stored over the first elements of `C0`. -/
def State.storeC0 (s : State) (vs : List CacheEntry) : State := { s with memC0 := memSetAll s.memC0 0 vs }

/-- A block in a supported configuration holds at most `2^44` bits (10_state.md R38). -/
theorem capN_le (c : Config) (h : configOk c = true) : c.capN ≤ 2 ^ 44 := by
  simp only [configOk, Bool.and_eq_true, decide_eq_true_eq] at h
  obtain ⟨⟨⟨-, hl0⟩, -⟩, hcap⟩ := h
  rw [nMax] at hcap
  omega

/-- No memory is deeper than a load index can reach (10_state.md R25). -/
theorem depths_lt (c : Config) (h : configOk c = true) : wDepth c < 2 ^ 64 ∧ sDepth c < 2 ^ 64 ∧ cacheDepth c < 2 ^ 64 := by
  have hcap := capN_le c h
  have hcache : cacheDepth c ≤ c.capN := Nat.div_le_self _ _
  simp only [sDepth, wDepth, ceilDiv]
  omega

/-- Stores of `vs` to the targets `target i`, `target (i + 1)`, and so on. -/
def storeAll (target : Nat → Word → LoadTarget) (s : State) (i : Nat) : List Word → State
  | [] => s
  | v :: vs => storeAll target (applyLoad s (target i v)) (i + 1) vs

/-- LOADs of consecutive elements within the depth store them one after another, where a LOAD within the depth decodes to its target. -/
theorem LoadsTo.load_elements {s₀ s : State} {seq : List Transaction} (h : LoadsTo s₀ seq s) (hconfig : configOk s₀.cfg = true)
    (target : Nat → Word → LoadTarget) (space : Space) (depth i : Nat) (vs : List Word)
    (htarget : ∀ i v, isControl (target i v) = false) (hdepth : i + vs.length ≤ depth) (hlt : depth < 2 ^ 64)
    (hd : ∀ index : Word, ∀ v ∈ vs, index.toNat < depth → decodeLoad s₀.cfg (codeOfSpace space) index v = .ok (target index.toNat v)) :
    LoadsTo s₀ (seq ++ loadsFrom space i vs) (storeAll target s i vs) := by
  induction vs generalizing s seq i with
  | nil => simpa [loadsFrom, storeAll] using h
  | cons v vs ih =>
    rw [List.length_cons] at hdepth
    have hindex : (BitVec.ofNat 64 i).toNat = i := by rw [BitVec.toNat_ofNat, Nat.mod_eq_of_lt (by omega)]
    have hv := hd (BitVec.ofNat 64 i) v List.mem_cons_self (by omega)
    rw [hindex] at hv
    have hnext := ih (h.load hconfig _ _ _ _ hv (htarget i v)) (i + 1) (by omega)
      (fun index x hx => hd index x (List.mem_cons_of_mem v hx))
    rwa [List.append_assoc] at hnext

section
variable (s : State) (i : Nat)

theorem storeAll_elemW (vs : List Word) : storeAll .elemW s i vs = { s with memW := memSetAll s.memW i vs } := by
  induction vs generalizing s i with
  | nil => rfl
  | cons v vs ih => exact ih _ _

theorem storeAll_elemS (vs : List Word) : storeAll .elemS s i vs = { s with memS := memSetAll s.memS i vs } := by
  induction vs generalizing s i with
  | nil => rfl
  | cons v vs ih => exact ih _ _

/-- A cache entry comes back from its load data (20_memory.md R73). -/
theorem truncate_zeroExtend (e : CacheEntry) : (e.zeroExtend 64).truncate 32 = e := by
  simp

theorem storeAll_elemC1 (es : List CacheEntry) :
    storeAll (fun i v => .elemC1 i (v.truncate 32)) s i (es.map (BitVec.zeroExtend 64)) = { s with memC1 := memSetAll s.memC1 i es } := by
  induction es generalizing s i with
  | nil => rfl
  | cons e es ih =>
    rw [List.map_cons, storeAll, truncate_zeroExtend]
    exact ih _ _

theorem storeAll_elemC0 (es : List CacheEntry) :
    storeAll (fun i v => .elemC0 i (v.truncate 32)) s i (es.map (BitVec.zeroExtend 64)) = { s with memC0 := memSetAll s.memC0 i es } := by
  induction es generalizing s i with
  | nil => rfl
  | cons e es ih =>
    rw [List.map_cons, storeAll, truncate_zeroExtend]
    exact ih _ _

end

/-- A cache entry as load data has its must-be-zero bits zero (20_memory.md R73). -/
theorem toNat_lt_of_mem_map_zeroExtend (es : List CacheEntry) (v : Word) (hv : v ∈ es.map (BitVec.zeroExtend 64)) : v.toNat < 2 ^ 32 := by
  obtain ⟨e, -, rfl⟩ := List.mem_map.mp hv
  have he := e.isLt
  rw [BitVec.zeroExtend, BitVec.toNat_setWidth, Nat.mod_eq_of_lt (he.trans (by decide))]
  exact he

section
variable {s₀ s : State} {seq : List Transaction} (h : LoadsTo s₀ seq s) (hconfig : configOk s₀.cfg = true)
include h hconfig

theorem LoadsTo.loads_w (vs : List Word) (hdepth : vs.length ≤ wDepth s₀.cfg) :
    LoadsTo s₀ (seq ++ loadsFrom .w 0 vs) (s.storeW vs) := by
  obtain ⟨hlt, -, -⟩ := depths_lt s₀.cfg hconfig
  rw [State.storeW, ← storeAll_elemW]
  exact h.load_elements hconfig .elemW .w _ 0 vs (fun _ _ => rfl) (by omega) hlt
    (fun index v _ hindex => decodeLoad_w _ _ index v rfl hindex)

theorem LoadsTo.loads_s (vs : List Word) (hdepth : vs.length ≤ sDepth s₀.cfg) :
    LoadsTo s₀ (seq ++ loadsFrom .s 0 vs) (s.storeS vs) := by
  obtain ⟨-, hlt, -⟩ := depths_lt s₀.cfg hconfig
  rw [State.storeS, ← storeAll_elemS]
  exact h.load_elements hconfig .elemS .s _ 0 vs (fun _ _ => rfl) (by omega) hlt
    (fun index v _ hindex => decodeLoad_s _ _ index v rfl hindex)

theorem LoadsTo.loads_c1 (es : List CacheEntry) (hdepth : es.length ≤ cacheDepth s₀.cfg) :
    LoadsTo s₀ (seq ++ loadsFrom .c1 0 (es.map (BitVec.zeroExtend 64))) (s.storeC1 es) := by
  obtain ⟨-, -, hlt⟩ := depths_lt s₀.cfg hconfig
  rw [State.storeC1, ← storeAll_elemC1]
  exact h.load_elements hconfig _ .c1 _ 0 _ (fun _ _ => rfl) (by simpa using hdepth) hlt
    (fun index v hv hindex => decodeLoad_c1 _ _ index v rfl hindex (toNat_lt_of_mem_map_zeroExtend es v hv))

theorem LoadsTo.loads_c0 (es : List CacheEntry) (hdepth : es.length ≤ cacheDepth s₀.cfg) :
    LoadsTo s₀ (seq ++ loadsFrom .c0 0 (es.map (BitVec.zeroExtend 64))) (s.storeC0 es) := by
  obtain ⟨-, -, hlt⟩ := depths_lt s₀.cfg hconfig
  rw [State.storeC0, ← storeAll_elemC0]
  exact h.load_elements hconfig _ .c0 _ 0 _ (fun _ _ => rfl) (by simpa using hdepth) hlt
    (fun index v hv hindex => decodeLoad_c0 _ _ index v rfl hindex (toNat_lt_of_mem_map_zeroExtend es v hv))

end

/-! ### The whole sequence -/

/-- A built image is within the depths of the memories (10_state.md R25). -/
structure Built.Fits (u : Built) (c : Config) : Prop where
  w : u.w.length ≤ wDepth c
  s : u.s.length ≤ sDepth c
  c1 : u.c1.length ≤ cacheDepth c
  c0 : u.c0.length ≤ cacheDepth c

/-- The state `s` once the loader's transactions are served: a built image stored over whatever the memories held, and `READY = 1` (R217). -/
def Built.loaded (u : Built) (s : State) : State :=
  { s with
    regN := BitVec.ofNat 64 u.n, l0Ones := BitVec.ofNat 64 u.l0Ones
    oneCount := BitVec.ofNat 64 u.oneCount, zeroCount := BitVec.ofNat 64 u.zeroCount
    lastOnePos := BitVec.ofNat 64 u.lastOnePos, lastZeroPos := BitVec.ofNat 64 u.lastZeroPos
    ready := true
    memW := memSetAll s.memW 0 u.w
    memS := memSetAll (memSetAll s.memS 0 (List.replicate u.s.length 0#64)) 0 u.s
    memC1 := memSetAll s.memC1 0 u.c1, memC0 := memSetAll s.memC0 0 u.c0 }

section
variable (u : Built) (s : State)

@[simp] theorem loaded_cfg : (u.loaded s).cfg = s.cfg := rfl
@[simp] theorem loaded_regN : (u.loaded s).regN = BitVec.ofNat 64 u.n := rfl
@[simp] theorem loaded_l0Ones : (u.loaded s).l0Ones = BitVec.ofNat 64 u.l0Ones := rfl
@[simp] theorem loaded_oneCount : (u.loaded s).oneCount = BitVec.ofNat 64 u.oneCount := rfl
@[simp] theorem loaded_zeroCount : (u.loaded s).zeroCount = BitVec.ofNat 64 u.zeroCount := rfl
@[simp] theorem loaded_lastOnePos : (u.loaded s).lastOnePos = BitVec.ofNat 64 u.lastOnePos := rfl
@[simp] theorem loaded_lastZeroPos : (u.loaded s).lastZeroPos = BitVec.ofNat 64 u.lastZeroPos := rfl
@[simp] theorem loaded_ready : (u.loaded s).ready = true := rfl
@[simp] theorem loaded_memW : (u.loaded s).memW = memSetAll s.memW 0 u.w := rfl
@[simp] theorem loaded_memS :
    (u.loaded s).memS = memSetAll (memSetAll s.memS 0 (List.replicate u.s.length 0#64)) 0 u.s := rfl
@[simp] theorem loaded_memC1 : (u.loaded s).memC1 = memSetAll s.memC1 0 u.c1 := rfl
@[simp] theorem loaded_memC0 : (u.loaded s).memC0 = memSetAll s.memC0 0 u.c0 := rfl
@[simp] theorem loaded_responses : (u.loaded s).responses = s.responses := rfl

end

/-- The loader's transactions are all accepted, whatever `READY` was before, and leave the built image. -/
theorem servesTo_loads (u : Built) (s : State) (hconfig : configOk s.cfg = true) (hfits : u.Fits s.cfg) :
    ServesTo s u.loads (u.loaded s) := by
  have hzero : (List.replicate u.s.length 0#64).length ≤ sDepth s.cfg := by
    rw [List.length_replicate]
    exact hfits.s
  have hclear : LoadsTo s [loadReg 6 0] (s.setReady false) := ⟨servesTo_loadReg_control s false hconfig, rfl, rfl⟩
  have hzeroed := hclear.loads_s hconfig _ hzero
  have hwords := hzeroed.loads_w hconfig _ hfits.w
  have hentries := hwords.loads_s hconfig _ hfits.s
  have hcache1 := hentries.loads_c1 hconfig _ hfits.c1
  have hcache0 := hcache1.loads_c0 hconfig _ hfits.c0
  have h1 := hcache0.loadReg_scalar hconfig 1 u.l0Ones .l0Ones rfl
  have h2 := h1.loadReg_scalar hconfig 2 u.oneCount .oneCount rfl
  have h3 := h2.loadReg_scalar hconfig 3 u.zeroCount .zeroCount rfl
  have h4 := h3.loadReg_scalar hconfig 4 u.lastOnePos .lastOnePos rfl
  have h5 := h4.loadReg_scalar hconfig 5 u.lastZeroPos .lastZeroPos rfl
  have hn := h5.loadReg_scalar hconfig 0 u.n .n rfl
  have hall := hn.serves.append (servesTo_loadReg_control _ true (by rw [hn.cfg, hconfig]))
  simpa [Built.loads, Built.loaded, State.storeW, State.storeS, State.storeC1, State.storeC0, State.setScalar, State.setReady] using hall

end Sys2Proof.Machine
end

section
/-! What the loader's transactions leave in the block (70_reset_and_hazards.md R217, R231), and its bits read back through ACCESS (40_access.md R106). -/

namespace Sys2Proof.Machine

/-! ### The built image fits -/

theorem length_buildImage_w (c : Config) (B : List Bool) : (buildImage c B).w.length = wordsFor B.length := by
  simp [buildImage]

/-- A pair of words per superblock, and the guard entry (R228, R230). -/
theorem length_buildImage_s (c : Config) (B : List Bool) : (buildImage c B).s.length = 2 * entriesFor B.length := by
  have hentries := passWords_length_entries c B (wordsFor B.length) (Nat.le_refl _)
  rw [if_pos rfl] at hentries
  simp [buildImage, hentries, entriesFor, guardFor, Nat.mul_add]

theorem rankOf_of_length_le (B : List Bool) (b : Bool) (i : Nat) (h : B.length ≤ i) : rankOf B b i = B.count b := by
  rw [rankOf, List.take_of_length_le h]

/-- `floor(total(b)/D)` entries in each cache (10_state.md R37). -/
theorem length_buildImage_caches (c : Config) (B : List Bool) (hd : 64 ≤ c.d) :
    (buildImage c B).c1.length = B.count true / c.d ∧ (buildImage c B).c0.length = B.count false / c.d := by
  obtain ⟨h1, h0⟩ := passWords_length_caches c B (wordsFor B.length) hd
  have hlength : B.length ≤ 64 * wordsFor B.length := by
    simp only [wordsFor, ceilDiv]
    omega
  rw [passWords_oneCount, rankOf_of_length_le B true _ hlength] at h1
  rw [passWords_zeroCount c B _ (Nat.le_refl _), rankOf_of_length_le B false _ hlength] at h0
  exact ⟨h1, h0⟩

/-- What the pass builds of a sequence the instance can hold is within the depths of the memories. -/
theorem buildImage_fits (c : Config) (B : List Bool) (hconfig : configOk c = true) (hlength : B.length ≤ c.capN) :
    (buildImage c B).Fits c := by
  simp only [configOk, Bool.and_eq_true, decide_eq_true_eq] at hconfig
  obtain ⟨⟨⟨⟨hd, -⟩, -⟩, -⟩, -⟩ := hconfig
  obtain ⟨hw, hs⟩ := lengths_fit c B.length hlength
  obtain ⟨h1, h0⟩ := length_buildImage_caches c B hd
  have hcount (b : Bool) : B.count b / c.d ≤ cacheDepth c := Nat.div_le_div_right (List.count_le_length.trans hlength)
  exact ⟨(length_buildImage_w c B).trans_le hw, (length_buildImage_s c B).trans_le hs, h1.trans_le (hcount true), h0.trans_le (hcount false)⟩

/-! ### The round trip -/

theorem loaderSequence_eq_some_iff (c : Config) (B : List Bool) (seq : List Transaction) :
    loaderSequence c B = some seq ↔ (1 ≤ B.length ∧ B.length ≤ min c.capN (nMax c)) ∧ (buildImage c B).loads = seq := by
  rw [loaderSequence, Option.ite_none_right_eq_some, Option.some_inj]

/-- The transactions of a loader sequence are all accepted, and leave the built image (R217). -/
theorem run_loaderSequence (s : State) (B : List Bool) (seq rest : List Transaction) (hconfig : configOk s.cfg = true)
    (hseq : loaderSequence s.cfg B = some seq) (hp : s.pending = seq ++ rest) :
    Host.Core.run Sys2Proof.core seq.length s = .next (((buildImage s.cfg B).loaded s).withPending rest) := by
  obtain ⟨⟨-, hlength⟩, rfl⟩ := (loaderSequence_eq_some_iff s.cfg B seq).mp hseq
  have hserves := servesTo_loads _ s hconfig (buildImage_fits s.cfg B hconfig (hlength.trans (Nat.min_le_left _ _))) rest
  rw [← hp] at hserves
  exact hserves

theorem elemW_loaded (u : Built) (s : State) (v : Nat) (x : Word) (h : u.w[v]? = some x) : (u.loaded s).elemW v = x := by
  have hget := memGet_memSetAll u.w s.memW 0 v x h
  rw [Nat.zero_add] at hget
  rw [State.elemW, loaded_memW, hget, Option.getD_some]

/-- The loaded block holds the bits of the sequence. -/
theorem getLsbD_elemW_loaded (s : State) (B : List Bool) (i : Nat) (b : Bool) (h : B[i]? = some b) :
    (((buildImage s.cfg B).loaded s).elemW (i / 64)).getLsbD (i % 64) = b := by
  obtain ⟨hi, -⟩ := List.getElem?_eq_some_iff.mp h
  have hword : (buildImage s.cfg B).w[i / 64]? = some (packWord B (i / 64)) := by
    have hin : i / 64 < wordsFor B.length := by
      simp only [wordsFor, ceilDiv]
      omega
    simp [buildImage, hin]
  rw [elemW_loaded _ _ _ _ hword, getLsbD_packWord B _ _ (Nat.mod_lt i (by decide)), Nat.div_add_mod, h, Option.getD_some]

/-- `N` of the loaded block. -/
theorem toNat_regN_loaded (s : State) (B : List Bool) (hconfig : configOk s.cfg = true) (hlength : B.length ≤ s.cfg.capN) :
    ((buildImage s.cfg B).loaded s).regN.toNat = B.length := by
  have hcap := capN_le s.cfg hconfig
  have hreg : ((buildImage s.cfg B).loaded s).regN.toNat = B.length % 2 ^ 64 := BitVec.toNat_ofNat B.length 64
  rw [hreg, Nat.mod_eq_of_lt (by omega)]

/-- The loaded block can be queried, whatever waits. -/
theorem queryable_loaded (s : State) (B : List Bool) (rest : List Transaction) (hconfig : configOk s.cfg = true)
    (hlength : 1 ≤ B.length ∧ B.length ≤ min s.cfg.capN (nMax s.cfg)) : Queryable (((buildImage s.cfg B).loaded s).withPending rest) := by
  obtain ⟨hnonempty, hmax⟩ := hlength
  rw [Nat.le_min] at hmax
  obtain ⟨hcap, hnMax⟩ := hmax
  have hN := toNat_regN_loaded s B hconfig hcap
  have hne : ((buildImage s.cfg B).loaded s).regN ≠ 0#64 := by
    intro h0
    rw [h0, BitVec.toNat_zero] at hN
    omega
  have hsupported : ((buildImage s.cfg B).loaded s).supported = true := by
    rw [State.supported, hN, loaded_cfg, hconfig, decide_eq_true hnMax, Bool.and_self]
  exact ⟨rfl, hne, hsupported, hN.trans_le hcap⟩

@[simp] theorem elemW_withPending (s : State) (rest : List Transaction) (v : Nat) : (s.withPending rest).elemW v = s.elemW v := rfl

/-- ACCESS reads the bits back from the loaded block. -/
theorem answers_access_loaded (s : State) (B : List Bool) (rest : List Transaction) (hconfig : configOk s.cfg = true)
    (hlength : 1 ≤ B.length ∧ B.length ≤ min s.cfg.capN (nMax s.cfg)) (i : Nat) (b : Bool) (h : B[i]? = some b) :
    Answers (((buildImage s.cfg B).loaded s).withPending rest) (.access (BitVec.ofNat 64 i)) (BitVec.ofNat 64 b.toNat) := by
  have hq := queryable_loaded s B rest hconfig hlength
  obtain ⟨hi, -⟩ := List.getElem?_eq_some_iff.mp h
  have hN := toNat_regN_loaded s B hconfig (hlength.2.trans (Nat.min_le_left _ _))
  have hcap := capN_le s.cfg hconfig
  have hindex : (BitVec.ofNat 64 i).toNat = i := by rw [BitVec.toNat_ofNat, Nat.mod_eq_of_lt (by omega)]
  have hlt : BitVec.ofNat 64 i < ((buildImage s.cfg B).loaded s).regN := by
    rw [BitVec.lt_def, hN, hindex]
    exact hi
  have hbit := hq.accessBit_eq (BitVec.ofNat 64 i) hlt
  rw [hindex, elemW_withPending, getLsbD_elemW_loaded s B i b h] at hbit
  exact hq.answers _ _ hbit

/-! ### ACCESS and RANK1 -/

/-- The bit at `i` is what RANK1 counts more at `i + 1` than at `i` (R106). -/
theorem IsImage.access_eq_rank1_sub {B : List Bool} {s : State} (h : IsImage B s) (hready : s.ready = true) (i : Word) (hi : i < s.regN) :
    ∃ a r q, Answers s (.access i) a ∧ Answers s (.rank1 i) r ∧ Answers s (.rank1 (i + 1#64)) q ∧ a = q - r ∧ r ≤ q := by
  obtain ⟨b, hb, haccess⟩ := h.answers_access hready i hi
  have hnext : (i + 1#64).toNat = i.toNat + 1 := by bv_omega
  have hq := h.answers_rank1 hready (i + 1#64) (by bv_omega)
  have hsucc : ones B 0 (i.toNat + 1) = ones B 0 i.toNat + b.toNat := by rw [ones_zero_succ, hb, Option.getD_some]
  have hbound := ones_le B 0 (i.toNat + 1)
  rw [hnext] at hq
  refine ⟨_, _, _, haccess, h.answers_rank1 hready i (BitVec.le_of_lt hi), hq, ?_, ?_⟩
  · rw [hsucc, BitVec.ofNat_add, BitVec.add_comm, BitVec.add_sub_cancel]
  · bv_omega

/-- Settles O32: RANK1 counts one position's bit more at the next position, and the loaded words hold the bits of the string. -/
theorem accessIsTheRankDifferenceAndReadsBack : Obligations.AccessIsTheRankDifferenceAndReadsBack := by
  unfold Obligations.AccessIsTheRankDifferenceAndReadsBack
  constructor
  · exact fun B s i h hready hi => h.access_eq_rank1_sub hready i hi
  · intro s chars seq rest hconfig hseq hp
    obtain ⟨hlength, -⟩ := (loaderSequence_eq_some_iff _ _ _).mp hseq
    exact ⟨_, run_loaderSequence s _ seq rest hconfig hseq hp, answers_access_loaded s _ rest hconfig hlength⟩

end Sys2Proof.Machine
end

section
/-! Positions and the mask of PARTIAL (41_rank.md R120, R125; 43_select_scan.md R172): a position and its coordinates determine each other. -/

namespace Sys2Proof.Machine

/-! ### POS and COORD -/

/-- The coordinates are the digits of the position (R120). -/
theorem coord_eq_mk (i : Word) :
    coord i = { sb := i.toNat / 4096, blk := i.toNat / 512 % 8, word := i.toNat / 64 % 8, bit := i.toNat % 64 } := by
  rw [← coord_sb, ← coord_blk, ← coord_word, ← coord_bit]

theorem posOf_coord (i : Word) : posOf (coord i).sb (coord i).blk (coord i).word (coord i).bit = i := by
  apply BitVec.eq_of_toNat_eq
  rw [posOf, BitVec.toNat_ofNat, coord_sb, coord_blk, coord_word, coord_bit]
  omega

/-- The high part of a concatenation weighs the width of the low part. -/
theorem toNat_append_eq_mul_add {m n : Nat} (x : BitVec m) (y : BitVec n) : (x ++ y).toNat = x.toNat * 2 ^ n + y.toNat := by
  rw [BitVec.toNat_append, ← Nat.shiftLeft_add_eq_or_of_lt y.isLt, Nat.shiftLeft_eq]

section
variable (t blk w j : Nat) (ht : t < 2 ^ 52) (hblk : blk < 8) (hw : w < 8) (hj : j < 64)
include ht hblk hw hj

/-- Parts within their widths do not overlap. -/
theorem toNat_posOf : (posOf t blk w j).toNat = t * 4096 + blk * 512 + w * 64 + j := by
  rw [posOf, BitVec.toNat_ofNat]
  omega

theorem coord_posOf : coord (posOf t blk w j) = { sb := t, blk := blk, word := w, bit := j } := by
  have hpos := toNat_posOf t blk w j ht hblk hw hj
  rw [coord_eq_mk, hpos, Coord.mk.injEq]
  omega

/-- POS is the concatenation of its parts (R172). -/
theorem posOf_eq_append :
    posOf t blk w j = (BitVec.ofNat 52 t ++ BitVec.ofNat 3 blk ++ BitVec.ofNat 3 w ++ BitVec.ofNat 6 j : BitVec (52 + 3 + 3 + 6)) := by
  apply BitVec.eq_of_toNat_eq
  rw [toNat_posOf t blk w j ht hblk hw hj]
  simp only [toNat_append_eq_mul_add, BitVec.toNat_ofNat]
  omega

end

/-- Settles O37: the parts are the digits of the position in the bases 64, 8, 8, so they give it back, and digits in range are the parts. -/
theorem coordinatesAndPositionsAreInverse : Obligations.CoordinatesAndPositionsAreInverse := by
  unfold Obligations.CoordinatesAndPositionsAreInverse
  constructor
  · intro i
    refine ⟨coord_blk_lt i, ?_, coord_bit_lt i, ?_, blockBase_add_word i, posOf_coord i⟩
    · rw [coord_word]
      exact Nat.mod_lt _ (by decide)
    · rw [coord_sb, coord_blk, coord_word, coord_bit]
      omega
  · exact fun t blk w j ht hblk hw hj => ⟨toNat_posOf t blk w j ht hblk hw hj, coord_posOf t blk w j ht hblk hw hj,
      posOf_eq_append t blk w j ht hblk hw hj⟩

/-! ### The mask -/

/-- At bit 0 the mask is empty. -/
theorem popcount_and_lowMask_zero (x : Word) : popcount (x &&& ((1#64 <<< 0) - 1#64)) = 0 := popcount_and_lowMask x 0 (by decide)

/-- Settles O38: under the mask the count stops at `bit`. -/
theorem maskedPopcountCountsTheLowBits : Obligations.MaskedPopcountCountsTheLowBits := by
  unfold Obligations.MaskedPopcountCountsTheLowBits
  exact fun x bit hbit => popcount_and_lowMask x bit hbit

end Sys2Proof.Machine
end

section
/-! RANK where the block can be queried, the image valid or not (41_rank.md R126 to R133; log 8): every read is in range, so both commands answer the sum of the five terms. -/

namespace Sys2Proof.Machine

/-! ### The clamp -/

/-- A clamped position is clamped no further, at `N = 0` either. -/
theorem clamp_regN_sub_one (s : State) : clamp s (s.regN - 1#64) = s.regN - 1#64 := ite_self _

/-- Every clamped position is at most `N`, where there is a last position to clamp to. -/
theorem Queryable.clamp_le {s : State} (hq : Queryable s) (i : Word) : clamp s i ≤ s.regN := by
  obtain ⟨-, hn, -, -⟩ := hq
  by_cases h : s.regN < i
  · rw [clamp_of_gt s i h]
    bv_omega
  · have hle := BitVec.not_lt.mp h
    rwa [clamp_of_le s i hle]

/-- A position above `N` runs as position `N - 1` (R127). -/
theorem exec_rank1_of_gt (s : State) (i : Word) (h : s.regN < i) : exec (.rank1 i) s = exec (.rank1 (s.regN - 1#64)) s := by
  rw [exec_eq_runQuery_queryBody, exec_eq_runQuery_queryBody, queryBody, queryBody, clamp_of_gt s i h, clamp_regN_sub_one]

theorem exec_rank0_of_gt (s : State) (i : Word) (h : s.regN < i) : exec (.rank0 i) s = exec (.rank0 (s.regN - 1#64)) s := by
  rw [exec_eq_runQuery_queryBody, exec_eq_runQuery_queryBody, queryBody, queryBody, clamp_of_gt s i h, clamp_regN_sub_one]

/-- A position up to `N` runs as given (R127). -/
theorem exec_rank1_of_le (s : State) (i : Word) (h : i ≤ s.regN) : exec (.rank1 i) s = runQuery s (rank1Fn s i) := by
  rw [exec_eq_runQuery_queryBody, queryBody, clamp_of_le s i h]

theorem exec_rank0_of_le (s : State) (i : Word) (h : i ≤ s.regN) : exec (.rank0 i) s = runQuery s (rank0Fn s i) := by
  rw [exec_eq_runQuery_queryBody, queryBody, clamp_of_le s i h]

/-! ### The sum of the five terms -/

theorem rank0Fn_of_rank1Fn (s : State) (i r : Word) (h : rank1Fn s i = .ok r) : rank0Fn s i = .ok (i - r) := by
  rw [rank0Fn, h, ok_bind, pure_eq_ok]

section
variable {s : State} (hq : Queryable s)
include hq

/-- The entry of every position up to `N` can be read (20_memory.md R60). -/
theorem Queryable.metaAt_ok (i : Nat) (hi : i ≤ s.regN.toNat) :
    metaAt s (i / 4096) = .ok (s.elemS (2 * (i / 4096)), s.elemS (2 * (i / 4096) + 1)) := by
  obtain ⟨-, -, -, hfits⟩ := hq
  have hdepth := (lengths_fit s.cfg s.regN.toNat hfits).2
  have hin : i / 4096 < entriesFor s.regN.toNat := superblock_lt_entriesFor _ _ hi
  exact Machine.metaAt_ok s _ hin (by omega)

/-- PARTIAL at a position up to `N`; at bit 0, where no word is read, the mask is empty. -/
theorem Queryable.partialSum_eq (base word bit : Nat) (hbit : bit < 64) (hi : (base + word) * 64 + bit ≤ s.regN.toNat) :
    partialSum s base word bit = .ok (BitVec.ofNat 64 (popcount (s.elemW (base + word) &&& ((1#64 <<< bit) - 1#64)))) := by
  by_cases h0 : bit = 0
  · subst h0
    rw [partialSum_zero, popcount_and_lowMask_zero]
  · exact partialSum_ok s base word bit h0 (hq.readW_ok _ (by omega))

/-- RANK1FN up to `N` reads in range only, and is the sum as R126 writes it. -/
theorem Queryable.rank1Fn_eq (i : Word) (hi : i ≤ s.regN) : rank1Fn s i = .ok (rank1Value s i) := by
  have hle : i.toNat ≤ s.regN.toNat := hi
  have hword := blockBase_add_word i
  have hmeta := hq.metaAt_ok i.toNat hle
  rw [← coord_sb] at hmeta
  have hwhole := wordSum_ok s (blockBase (coord i).sb (coord i).blk) (coord i).word (fun k hk => hq.readW_ok _ (by omega))
  have hpart := hq.partialSum_eq (blockBase (coord i).sb (coord i).blk) (coord i).word (coord i).bit (coord_bit_lt i)
    (by rw [hword, coord_bit]; omega)
  simp only [rank1Fn, hmeta, hwhole, hpart, ok_bind, pure_eq_ok, rank1Value]

/-- RANK1 completes on every operand with the sum at the clamped position (R128, R133). -/
theorem Queryable.answers_rank1 (i : Word) : Answers s (.rank1 i) (rank1Value s (clamp s i)) :=
  hq.answers _ _ (hq.rank1Fn_eq _ (hq.clamp_le i))

/-- RANK0 completes on every operand with the clamped position less that sum (R129, R133). -/
theorem Queryable.answers_rank0 (i : Word) : Answers s (.rank0 i) (clamp s i - rank1Value s (clamp s i)) :=
  hq.answers _ _ (rank0Fn_of_rank1Fn s _ _ (hq.rank1Fn_eq _ (hq.clamp_le i)))

end

/-- Settles O18: the clamp leaves a position up to `N`, where every read is in range. -/
theorem rankAnswersTheSumOfFiveTerms : Obligations.RankAnswersTheSumOfFiveTerms := by
  unfold Obligations.RankAnswersTheSumOfFiveTerms
  exact fun s i hq => ⟨hq.answers_rank1 i, hq.answers_rank0 i⟩

/-- Settles O31: up to `N` RANK0 answers the position less what RANK1 answers. -/
theorem ranksAddUpToThePosition : Obligations.RanksAddUpToThePosition := by
  unfold Obligations.RanksAddUpToThePosition
  intro s i hq hi
  refine ⟨_, _, hq.answers_rank0 i, hq.answers_rank1 i, ?_⟩
  rw [BitVec.sub_add_cancel, clamp_of_le s i hi]

/-! ### The note of the clamp -/

/-- A command that answers is noted as V5 exactly when its position overshoots (60_exceptions.md R191, R192). -/
theorem Answers.noteOf_eq {s : State} {i : Instr} {v : Word} (h : Answers s i v) :
    noteOf i s (exec i s) = if overshoots i s then some .v5RankOvershoot else none := by
  rw [h, noteOf]

/-- Settles O19: above `N` the clamp gives `N - 1`, up to `N` the position itself, and the note follows the same comparison. -/
theorem rankOvershootIsClamped : Obligations.RankOvershootIsClamped := by
  unfold Obligations.RankOvershootIsClamped
  intro s i
  refine ⟨fun h => ⟨exec_rank1_of_gt s i h, exec_rank0_of_gt s i h⟩, fun hq h => ?noted,
    fun h => ⟨exec_rank1_of_le s i h, exec_rank0_of_le s i h⟩, fun hq h => ?notNoted⟩
  case noted =>
    rw [(hq.answers_rank1 i).noteOf_eq, (hq.answers_rank0 i).noteOf_eq]
    simp [overshoots, h]
  case notNoted =>
    have hnot : ¬ s.regN < i := BitVec.not_lt.mpr h
    rw [(hq.answers_rank1 i).noteOf_eq, (hq.answers_rank0 i).noteOf_eq]
    simp [overshoots, hnot]

/-! ### The end of the sequence -/

/-- At the first position of a block no word adds to the sum. -/
theorem rank1Value_of_block_start (s : State) (i : Word) (h : i.toNat % 512 = 0) :
    rank1Value s i = fieldR (s.elemS (2 * (i.toNat / 4096))) + s.l0Term (i.toNat / 4096) +
      prefixBlock (s.elemS (2 * (i.toNat / 4096))) (s.elemS (2 * (i.toNat / 4096) + 1)) (i.toNat / 512 % 8) := by
  have hword : (coord i).word = 0 := by
    rw [coord_word]
    omega
  have hbit : (coord i).bit = 0 := by
    rw [coord_bit]
    omega
  simp only [rank1Value, hword, hbit, coord_sb, coord_blk, List.range_zero, List.map_nil, List.sum_nil, popcount_and_lowMask_zero,
    BitVec.add_zero]

theorem guardFor_of_superblock_start (n : Nat) (h : n % 4096 = 0) : guardFor n = n / 4096 := by
  simp only [guardFor, wordsFor, ceilDiv]
  omega

/-- Where the last superblock is not full, the guard entry is the one after it. -/
theorem guardFor_of_not_superblock_start (n : Nat) (h : n % 4096 ≠ 0) : guardFor n = n / 4096 + 1 := by
  simp only [guardFor, wordsFor, ceilDiv]
  omega

theorem prefixBlock_of_pos (m1 m2 : Word) (blk : Nat) (h : 0 < blk) : prefixBlock m1 m2 blk = fieldB m1 m2 (blk - 1) := by
  obtain ⟨k, rfl⟩ := Nat.exists_eq_add_of_lt h
  rfl

/-- Settles O20: `N` begins a block, so only the entry's terms are left; at block 0 of the guard entry the block term is 0, and any other block is in the last real entry. -/
theorem rankAtTheEndReadsMetadataOnly : Obligations.RankAtTheEndReadsMetadataOnly := by
  unfold Obligations.RankAtTheEndReadsMetadataOnly
  intro s hq
  have hanswer := hq.answers_rank1 s.regN
  rw [clamp_of_le s s.regN (BitVec.le_refl _)] at hanswer
  refine ⟨fun hsuper => ?guard, fun hblock hsuper => ?lastReal⟩
  case guard =>
    have hblk : s.regN.toNat / 512 % 8 = 0 := by omega
    rw [rank1Value_of_block_start s _ (by omega), hblk, prefixBlock, BitVec.add_zero] at hanswer
    rwa [guardFor_of_superblock_start _ hsuper]
  case lastReal =>
    have hblk : 0 < s.regN.toNat / 512 % 8 := by omega
    rw [rank1Value_of_block_start s _ hblock, prefixBlock_of_pos _ _ _ hblk] at hanswer
    simpa only [guardFor_of_not_superblock_start _ hsuper, Nat.add_sub_cancel] using hanswer

end Sys2Proof.Machine
end

section
/-! Both ranks on a valid image count the occurrences (41_rank.md R128, R129, R131). -/

namespace Sys2Proof.Machine

section
variable {B : List Bool} {s : State} (h : IsImage B s) (hready : s.ready = true)
include h hready

/-- RANK0 at a position up to `N` of an image: what is no 1-bit is a 0-bit (R129). -/
theorem IsImage.answers_rank0 (i : Word) (hi : i ≤ s.regN) : Answers s (.rank0 i) (BitVec.ofNat 64 (rankOf B false i.toNat)) := by
  have hlength : i.toNat ≤ B.length := by
    rw [← h.regN]
    exact hi
  have hle := ones_le B 0 i.toNat
  refine (h.queryable hready).answers _ _ ?_
  rw [queryBody, clamp_of_le s i hi, rank0Fn_of_rank1Fn s i _ (h.rank1Fn_eq i hlength), rankOf_false_eq B _ hlength]
  congr 1
  bv_omega

/-- Above `N` of an image both ranks count the occurrences before the last position (R127). -/
theorem IsImage.answers_ranks_of_gt (i : Word) (hi : s.regN < i) :
    Answers s (.rank1 i) (BitVec.ofNat 64 (rankOf B true (B.length - 1))) ∧
      Answers s (.rank0 i) (BitVec.ofNat 64 (rankOf B false (B.length - 1))) := by
  have hn := h.regN_ne
  have hlast : (s.regN - 1#64).toNat = B.length - 1 := by
    rw [← h.regN]
    bv_omega
  have hle : s.regN - 1#64 ≤ s.regN := by bv_omega
  have h1 := h.answers_rank1 hready _ hle
  have h0 := h.answers_rank0 hready _ hle
  rw [hlast] at h1 h0
  exact ⟨(exec_rank1_of_gt s i hi).trans h1, (exec_rank0_of_gt s i hi).trans h0⟩

end

/-- Settles O21: up to `N` the sum of the five terms is the count of the 1-bits before the position, and above `N` the clamp gives `N - 1`. -/
theorem rankCountsTheOccurrences : Obligations.RankCountsTheOccurrences := by
  unfold Obligations.RankCountsTheOccurrences
  refine fun B s i h hready => ⟨fun hi => ?upToN, h.answers_ranks_of_gt hready i⟩
  have hlength : i.toNat ≤ B.length := by
    rw [← h.regN]
    exact hi
  exact ⟨h.answers_rank1 hready i hi, h.answers_rank0 hready i hi, rfl, rankOf_false_eq B _ hlength⟩

end Sys2Proof.Machine
end

section
/-! The `b`-bits before a position of a sequence that goes on with zeros, and the position of the `k`-th of them: the one comparison that every step of SELECT makes (42_select_locate.md R148; 43_select_scan.md R174). -/

namespace Sys2Proof.Machine

/-! ### Counting up to a position -/

/-- The `b`-bits before position `i`, the positions past the end of the sequence holding zeros: what the metadata counts (10_state.md R30, R44). -/
def paddedRank (B : List Bool) (b : Bool) (i : Nat) : Nat := if b then ones B 0 i else i - ones B 0 i

theorem cumCount_eq_paddedRank (B : List Bool) (b : Bool) (sb : Nat) : cumCount B b sb = paddedRank B b (sb * 4096) := rfl

/-- One more position adds 1 where it holds `b`. -/
theorem paddedRank_succ (B : List Bool) (b : Bool) (i : Nat) :
    paddedRank B b (i + 1) = paddedRank B b i + ((B[i]?).getD false == b).toNat := by
  have hsucc := ones_zero_succ B i
  have hle := ones_le B 0 i
  cases b with
  | true => simp [paddedRank, hsucc]
  | false =>
    simp only [paddedRank, Bool.false_eq_true, if_false, hsucc]
    cases (B[i]?).getD false with
    | true => simp
    | false =>
      simp only [Bool.toNat_false, Nat.add_zero, beq_self_eq_true, Bool.toNat_true]
      omega

theorem paddedRank_succ_of_getElem? (B : List Bool) (b : Bool) (i : Nat) (h : B[i]? = some b) :
    paddedRank B b (i + 1) = paddedRank B b i + 1 := by
  simp [paddedRank_succ, h]

theorem paddedRank_mono (B : List Bool) (b : Bool) : Monotone (paddedRank B b) := by
  refine monotone_nat_of_le_succ (fun i => ?_)
  rw [paddedRank_succ]
  exact Nat.le_add_right _ _

/-- The positions of a range hold at most as many `b`-bits as they are. -/
theorem paddedRank_add_le (B : List Bool) (b : Bool) (i n : Nat) : paddedRank B b (i + n) ≤ paddedRank B b i + n := by
  induction n with
  | zero => exact Nat.le_refl _
  | succ n ih =>
    have hbit : ((B[i + n]?).getD false == b).toNat ≤ 1 := Bool.toNat_le _
    rw [← Nat.add_assoc, paddedRank_succ]
    omega

theorem paddedRank_eq_rankOf (B : List Bool) (b : Bool) (i : Nat) (h : i ≤ B.length) : paddedRank B b i = rankOf B b i := by
  cases b with
  | true => rfl
  | false => exact (rankOf_false_eq B i h).symm

/-! ### The position of the `k`-th `b`-bit -/

section
variable {B : List Bool} {b : Bool} {k p : Nat} (hp : bitPos B b k = some p)
include hp

theorem getElem?_of_bitPos : B[p]? = some b := by
  obtain ⟨-, hbit, -⟩ := ((bitPosIsTheMthOccurrence B b k).1 p).mp hp
  exact hbit

theorem bitPos_lt_length : p < B.length := (List.getElem?_eq_some_iff.mp (getElem?_of_bitPos hp)).1

/-- All of the first `k` but the `k`-th itself come before it. -/
theorem paddedRank_bitPos_add_one : paddedRank B b p + 1 = k := by
  obtain ⟨hk, -, hrank⟩ := ((bitPosIsTheMthOccurrence B b k).1 p).mp hp
  rw [paddedRank_eq_rankOf B b p (bitPos_lt_length hp).le, hrank, Nat.sub_add_cancel hk]

/-- Fewer than `k` `b`-bits come before a position exactly when it is at or before that of the `k`-th. -/
theorem paddedRank_lt_iff (i : Nat) : paddedRank B b i < k ↔ i ≤ p := by
  have hbefore := paddedRank_bitPos_add_one hp
  have hnext := paddedRank_succ_of_getElem? B b p (getElem?_of_bitPos hp)
  constructor
  · intro hlt
    by_contra hgt
    have hmono : paddedRank B b (p + 1) ≤ paddedRank B b i := paddedRank_mono B b (not_le.mp hgt)
    omega
  · intro hle
    have hmono := paddedRank_mono B b hle
    omega

/-- A later `b`-bit lies no earlier. -/
theorem bitPos_le_bitPos {k' p' : Nat} (hp' : bitPos B b k' = some p') (h : k ≤ k') : p ≤ p' := by
  rw [← paddedRank_lt_iff hp' p]
  exact ((paddedRank_lt_iff hp p).mpr (Nat.le_refl p)).trans_le h

theorem bitPos_word_lt : p / 64 < wordsFor B.length := by
  have hlt := bitPos_lt_length hp
  simp only [wordsFor, ceilDiv]
  omega

theorem bitPos_superblock_lt : p / 4096 < entriesFor B.length := superblock_lt_entriesFor _ _ (bitPos_lt_length hp).le

/-- The superblock of an occurrence is a real one (R148). -/
theorem superblock_lt_guardFor : p / 4096 < guardFor B.length := by
  have hlt := bitPos_lt_length hp
  have hguard := length_le_guardFor B.length
  omega

end

/-- The last position of a value is that of its last occurrence. -/
theorem IsLast.bitPos_eq {B : List Bool} {b : Bool} {l p : Nat} (hl : IsLast B b l) (hp : bitPos B b (B.count b) = some p) : l = p := by
  obtain ⟨hbit, hafter⟩ := hl
  have hle : p ≤ l := not_lt.mp (fun hlt => hafter p hlt (getElem?_of_bitPos hp))
  have hlength := (List.getElem?_eq_some_iff.mp hbit).1
  have hnext := paddedRank_succ_of_getElem? B b l hbit
  have hcount : paddedRank B b (l + 1) ≤ B.count b := by
    rw [paddedRank_eq_rankOf B b (l + 1) hlength]
    exact (List.take_sublist _ _).count_le _
  have hlast := (paddedRank_lt_iff hp l).mp (by omega)
  omega

end Sys2Proof.Machine
end

section
/-! LOCATE on a valid image (42_select_locate.md R143 to R148): an entry's count is below `k` exactly up to the superblock of the `k`-th bit, and the cache brackets that superblock. -/

namespace Sys2Proof.Machine

section
variable {B : List Bool} {s : State} (h : IsImage B s)
include h

/-! ### The totals and the caches -/

theorem IsImage.toNat_total (b : Bool) : (s.total b).toNat = B.count b := by
  have hones : ones B 0 B.length = B.count true := by rw [ones_zero, List.take_length]
  cases b with
  | true => exact h.oneCount.trans hones
  | false =>
    have hsum := List.count_false_add_count_true B
    have hzero : (s.total false).toNat = B.length - ones B 0 B.length := h.zeroCount
    omega

/-- There is a `k`-th `b`-bit for every `k` from 1 to the total. -/
theorem IsImage.exists_bitPos {b : Bool} {k : Word} (hk : 1#64 ≤ k) (hle : k ≤ s.total b) : ∃ p, bitPos B b k.toNat = some p := by
  refine (bitPosIsTheMthOccurrence B b k.toNat).2.mpr ⟨hk, ?_⟩
  rw [← h.toNat_total b]
  exact hle

/-- Every entry in use of a cache can be read (20_memory.md R60). -/
theorem IsImage.readC_ok (b : Bool) (j : Nat) (hj : j < s.cacheLen b) : readC s b j = .ok (s.elemC b j).toNat := by
  have hfit := h.supported.2
  have hcount : (s.total b).toNat ≤ s.cfg.capN := by
    rw [h.toNat_total b]
    rw [h.regN] at hfit
    exact List.count_le_length.trans hfit
  exact Machine.readC_ok s b j hj (hj.trans_le (Nat.div_le_div_right hcount))

/-! ### The search for the superblock -/

variable {b : Bool} {k : Word} {p : Nat} (hp : bitPos B b k.toNat = some p)
include hp

/-- The test of every probe: an entry's count is below `k` exactly up to the superblock of the `k`-th bit. -/
theorem IsImage.cum_lt_iff (sb : Nat) (hsb : sb < entriesFor B.length) :
    BitVec.ofNat 64 (cumCount B b sb) < k ↔ sb ≤ p / 4096 := by
  rw [BitVec.lt_def, h.toNat_cumCount b sb hsb, cumCount_eq_paddedRank, paddedRank_lt_iff hp, Nat.le_div_iff_mul_le (by decide)]

/-- The lower bound of the bracket is at or before the superblock sought: its cache entry is of a `b`-bit up to the `k`-th (R146). -/
theorem IsImage.bracketStart_le : ∃ start, bracketStart s b (k.toNat / s.cfg.d) = .ok start ∧ start ≤ p / 4096 := by
  unfold bracketStart
  split
  next hq =>
    obtain ⟨hq, hj⟩ := hq
    obtain ⟨p', hp', hentry⟩ := h.caches b _ hj
    rw [Nat.sub_add_cancel hq] at hp'
    have hle := bitPos_le_bitPos hp' hp (Nat.div_mul_le_self _ _)
    have hsb : p' / 4096 ≤ p / 4096 := Nat.div_le_div_right hle
    refine ⟨_, by rw [h.readC_ok b _ hj, ok_bind, pure_eq_ok], ?_⟩
    rw [satdec, hentry]
    omega
  next => exact ⟨0, rfl, Nat.zero_le _⟩

/-- The upper bound of the bracket is past the superblock sought: its cache entry is of a `b`-bit past the `k`-th (R146). -/
theorem IsImage.lt_bracketEnd : ∃ stop, bracketEnd s b (k.toNat / s.cfg.d) = .ok stop ∧ p / 4096 < stop := by
  have hguard := superblock_lt_guardFor hp
  have hnsb : s.nsb - 1 = guardFor B.length := by rw [h.nsb_eq, entriesFor, Nat.add_sub_cancel]
  unfold bracketEnd
  split
  next hj =>
    obtain ⟨p', hp', hentry⟩ := h.caches b _ hj
    have hd : 0 < s.cfg.d := by
      by_contra h0
      simp [State.cacheLen, Nat.eq_zero_of_not_pos h0] at hj
    have hle := bitPos_le_bitPos hp hp' (Nat.lt_mul_of_div_lt (Nat.lt_succ_self _) hd).le
    have hsb : p / 4096 ≤ p' / 4096 := Nat.div_le_div_right hle
    refine ⟨_, by rw [h.readC_ok b _ hj, ok_bind, pure_eq_ok], ?_⟩
    rw [hentry, hnsb]
    omega
  next => exact ⟨_, rfl, hguard.trans_eq hnsb.symm⟩

/-- Where the search ends, the decrement does not wrap. -/
theorem IsImage.dec64_succ : dec64 (p / 4096 + 1) = p / 4096 := by
  have hlt := h.superblock_lt _ (bitPos_superblock_lt hp)
  rw [dec64_pos _ (by omega) (by omega), Nat.add_sub_cancel]

/-- The search keeps the superblock after the one sought inside its interval (R147). -/
theorem IsImage.bsearch_eq (fuel lo hi : Nat) (hfuel : hi - lo < 2 ^ fuel) (hlo : lo ≤ p / 4096 + 1) (hhi : p / 4096 < hi)
    (hguard : hi ≤ guardFor B.length) : bsearch s k b fuel lo hi = .ok (p / 4096) := by
  induction fuel generalizing lo hi with
  | zero =>
    obtain rfl : lo = p / 4096 + 1 := by omega
    rw [bsearch_done s k b 0 _ _ (by omega), h.dec64_succ hp]
  | succ fuel ih =>
    by_cases hlt : lo < hi
    · have hmid : (lo + hi) / 2 < entriesFor B.length := by
        rw [entriesFor]
        omega
      rw [bsearch_step s k b fuel lo hi _ hlt (h.cum_eq b _ hmid)]
      split
      next hbelow =>
        rw [h.cum_lt_iff hp _ hmid] at hbelow
        exact ih _ _ (by omega) (by omega) hhi hguard
      next hreached =>
        rw [h.cum_lt_iff hp _ hmid] at hreached
        exact ih _ _ (by omega) hlo (by omega) (by omega)
    · obtain rfl : lo = p / 4096 + 1 := by omega
      rw [bsearch_done s k b _ _ _ hlt, h.dec64_succ hp]

theorem IsImage.locateByCache_eq : locateByCache s k b = .ok (p / 4096) := by
  obtain ⟨start, hstart, hlo⟩ := h.bracketStart_le hp
  obtain ⟨stop, hstop, hhi⟩ := h.lt_bracketEnd hp
  have hle := bracketEnd_le s b _ stop hstop
  have hnsb := nsb_le s
  simp only [locateByCache, hstart, hstop, ok_bind]
  refine h.bsearch_eq hp 64 start stop (by omega) (by omega) hhi ?_
  rwa [h.nsb_eq] at hle

/-- LOCATE answers the superblock of the `k`-th `b`-bit (R148). -/
theorem IsImage.locate_eq : locate s k b = .ok (p / 4096) := by
  have hguard := superblock_lt_guardFor hp
  have hnsb : s.nsb = guardFor B.length + 1 := h.nsb_eq
  have hcum := h.cum_eq b
  have htest := h.cum_lt_iff hp
  rw [entriesFor] at hcum htest
  rw [locate, if_neg (by omega), hcum 1 (by omega), ok_bind]
  split
  next hfirst =>
    rw [← BitVec.not_lt, htest 1 (by omega)] at hfirst
    rw [pure_eq_ok, show p / 4096 = 0 by omega]
  next =>
    rw [locateFar, hnsb, Nat.add_sub_cancel, hcum _ (Nat.lt_succ_self _), ok_bind, if_neg, h.locateByCache_eq hp]
    rw [htest _ (Nat.lt_succ_self _)]
    omega

end

/-- Settles O24: an entry's count is below `k` up to the superblock of the `k`-th bit and reaches `k` after it. -/
theorem locateFindsTheSuperblock : Obligations.LocateFindsTheSuperblock := by
  unfold Obligations.LocateFindsTheSuperblock
  intro B s k b h hk hle
  obtain ⟨p, hp⟩ := h.exists_bitPos hk hle
  have hguard := superblock_lt_guardFor hp
  have hin := bitPos_superblock_lt hp
  refine ⟨p, hp, h.locate_eq hp, by omega, ⟨_, h.cum_eq b _ hin, (h.cum_lt_iff hp _ hin).mpr (Nat.le_refl _)⟩, fun sb hlt hsb => ?_⟩
  refine ⟨_, h.cum_eq b sb hsb, ?_⟩
  rw [← BitVec.not_lt, h.cum_lt_iff hp sb hsb]
  exact not_le.mpr hlt

end Sys2Proof.Machine
end

section
/-! SCAN on a valid image (43_select_scan.md R165 to R174): the block, the word and the bit of the `k`-th `b`-bit, each found by the same comparison. -/

namespace Sys2Proof.Machine

/-! ### BITSEL -/

/-- The scan of a word answers a set bit with `r - 1` set bits before it from where the scan begins (R171). -/
theorem bitSelFrom_eq (x : Word) (n r j : Nat) (hj : j < 64) (hbit : x.getLsbD j = true) (hn : 64 - n ≤ j) (hr : 1 ≤ r) (hle : n ≤ 64)
    (hcount : popcountBelow x j + 1 = popcountBelow x (64 - n) + r) : bitSelFrom x n r = some j := by
  induction n generalizing r with
  | zero => omega
  | succ n ih =>
    have hnext : popcountBelow x (64 - n) = popcountBelow x (63 - n) + (x.getLsbD (63 - n)).toNat := by
      rw [show 64 - n = 63 - n + 1 by omega, popcountBelow]
    have hmono : 63 - n < j → popcountBelow x (64 - n) ≤ popcountBelow x j := fun hlt => popcountBelow_mono x _ _ (by omega)
    have hfrom : 64 - (n + 1) = 63 - n := by omega
    rw [hfrom] at hn hcount
    rw [bitSelFrom]
    split
    next hset =>
      rw [hset, Bool.toNat_true] at hnext
      split
      next hr1 =>
        have hj' : 63 - n = j := by omega
        rw [hj']
      next hr1 =>
        have hne : 63 - n ≠ j := by
          rintro rfl
          omega
        exact ih (r - 1) (by omega) (by omega) (by omega) (by omega)
    next hclear =>
      have hne : 63 - n ≠ j := by
        rintro rfl
        exact hclear hbit
      rw [Bool.eq_false_iff.mpr hclear, Bool.toNat_false] at hnext
      exact ih r (by omega) hr (by omega) (by omega)

/-- BITSEL answers the set bit with `r - 1` set bits below it (R171). -/
theorem bitSel_eq (x : Word) (r j : Nat) (hj : j < 64) (hbit : x.getLsbD j = true) (hr : 1 ≤ r) (hcount : popcountBelow x j + 1 = r) :
    bitSel x r = some j := by
  rw [bitSel, if_neg (by omega)]
  exact bitSelFrom_eq x 64 r j hj hbit (Nat.zero_le j) hr (Nat.le_refl 64) (by rw [hcount, Nat.sub_self, popcountBelow, Nat.zero_add])

/-! ### BLKSEL -/

/-- BLKSEL answers the block from which on the cumulative counts reach `rem`, block 7 untested (R167). -/
theorem blkSelFrom_eq (m1 m2 rem : Word) (b : Bool) (blk n : Nat) (hblk : blk < 8) (hn : n ≤ 7) (hfrom : 7 - n ≤ blk)
    (htest : ∀ j < 7, rem ≤ blkCnt m1 m2 j b ↔ blk ≤ j) : blkSelFrom m1 m2 rem b n = blk := by
  induction n with
  | zero =>
    rw [blkSelFrom]
    omega
  | succ n ih =>
    rw [blkSelFrom]
    split
    next hreached =>
      rw [htest _ (by omega)] at hreached
      omega
    next hbelow =>
      rw [htest _ (by omega)] at hbelow
      exact ih (by omega) (by omega)

/-! ### The words of an image, as step C reads them -/

/-- The word step C counts in: inverted for `b = 0` (R169). -/
def wordOf (s : State) (b : Bool) (v : Nat) : Word := if b then s.elemW v else ~~~s.elemW v

section
variable {B : List Bool} {s : State} (h : IsImage B s) (b : Bool)
include h

/-- Its set bits are the positions that hold `b`, padding counted as zeros. -/
theorem IsImage.getLsbD_wordOf (v j : Nat) (hv : v < wordsFor B.length) (hj : j < 64) :
    (wordOf s b v).getLsbD j = ((B[64 * v + j]?).getD false == b) := by
  have hbit := h.words v hv j hj
  cases b with
  | true => simp [wordOf, hbit]
  | false =>
    rw [← hbit, wordOf, if_neg Bool.false_ne_true, BitVec.getLsbD_not]
    simp [hj]

theorem IsImage.popcountBelow_wordOf (v n : Nat) (hv : v < wordsFor B.length) (hn : n ≤ 64) :
    paddedRank B b (64 * v) + popcountBelow (wordOf s b v) n = paddedRank B b (64 * v + n) := by
  induction n with
  | zero => rfl
  | succ n ih =>
    rw [popcountBelow, ← Nat.add_assoc, ih (by omega), h.getLsbD_wordOf b v n hv (by omega)]
    exact (paddedRank_succ B b (64 * v + n)).symm

/-- BLKCNT counts the `b`-bits of the first `j + 1` blocks of the superblock (R166). -/
theorem IsImage.toNat_blkCnt (sb j : Nat) (hsb : sb < entriesFor B.length) (hj : j < 7) :
    paddedRank B b (sb * 4096) + (blkCnt (s.elemS (2 * sb)) (s.elemS (2 * sb + 1)) j b).toNat =
      paddedRank B b (sb * 4096 + 512 * (j + 1)) := by
  have hfield := h.fieldsB sb hsb j hj
  have hadd := ones_zero_add B (sb * 4096) (sb * 4096 + 512 * (j + 1)) (by omega)
  have hbefore := ones_le B 0 (sb * 4096)
  have hblocks := ones_le B (sb * 4096) (sb * 4096 + 512 * (j + 1))
  cases b with
  | true => simp only [paddedRank, blkCnt, if_true, hfield, hadd]
  | false =>
    have hsub : (BitVec.ofNat 64 ((j + 1) * 512) - fieldB (s.elemS (2 * sb)) (s.elemS (2 * sb + 1)) j).toNat =
        (j + 1) * 512 - ones B (sb * 4096) (sb * 4096 + 512 * (j + 1)) := by bv_omega
    simp only [paddedRank, blkCnt, Bool.false_eq_true, if_false, hsub]
    omega

/-! ### The steps of SCAN -/

variable {b} {k : Word} {p : Nat} (hp : bitPos B b k.toNat = some p)
include hp

/-- The remaining count: what is left of `k` past the `b`-bits before the superblock (R149). -/
theorem IsImage.add_toNat_rem :
    paddedRank B b (p / 4096 * 4096) + (k - BitVec.ofNat 64 (cumCount B b (p / 4096))).toNat = k.toNat := by
  have hin := bitPos_superblock_lt hp
  have hcount := h.toNat_cumCount b _ hin
  have hlt := (h.cum_lt_iff hp _ hin).mpr (Nat.le_refl _)
  rw [BitVec.toNat_sub_of_le (BitVec.le_of_lt hlt), hcount, ← cumCount_eq_paddedRank]
  bv_omega

section
variable {rem : Word} (hrem : paddedRank B b (p / 4096 * 4096) + rem.toNat = k.toNat)
include hrem

/-- The test of every block: the count reaches `rem` exactly from the block of the `k`-th bit on (R167). -/
theorem IsImage.le_blkCnt_iff (j : Nat) (hj : j < 7) :
    rem ≤ blkCnt (s.elemS (2 * (p / 4096))) (s.elemS (2 * (p / 4096) + 1)) j b ↔ p / 512 % 8 ≤ j := by
  have hcount := h.toNat_blkCnt b (p / 4096) j (bitPos_superblock_lt hp) hj
  have htest := paddedRank_lt_iff hp (p / 4096 * 4096 + 512 * (j + 1))
  rw [BitVec.le_def]
  omega

theorem IsImage.blkSel_eq : blkSel (s.elemS (2 * (p / 4096))) (s.elemS (2 * (p / 4096) + 1)) rem b = p / 512 % 8 :=
  blkSelFrom_eq _ _ rem b _ 7 (Nat.mod_lt _ (by decide)) (Nat.le_refl 7) (Nat.zero_le _) (h.le_blkCnt_iff hp hrem)

/-- The ordinal inside the block: what is left of `k` past the `b`-bits before the block (R168). -/
theorem IsImage.add_toNat_remInBlock :
    paddedRank B b (p / 512 * 512) + (remInBlock (s.elemS (2 * (p / 4096))) (s.elemS (2 * (p / 4096) + 1)) rem b).toNat = k.toNat := by
  unfold remInBlock
  rw [h.blkSel_eq hp hrem]
  split
  next hblk =>
    rwa [show p / 512 * 512 = p / 4096 * 4096 by omega]
  next j hblk =>
    have hcount := h.toNat_blkCnt b (p / 4096) j (bitPos_superblock_lt hp) (by omega)
    have hbefore := BitVec.le_of_lt (BitVec.not_le.mp ((h.le_blkCnt_iff hp hrem j (by omega)).not.mpr (by omega)))
    rw [BitVec.toNat_sub_of_le hbefore, show p / 512 * 512 = p / 4096 * 4096 + 512 * (j + 1) by omega, ← hcount, Nat.add_assoc,
      Nat.add_sub_of_le hbefore, hrem]

end

/-- What step C finds: the word of the `k`-th bit, and the ordinal inside it (R169). -/
theorem IsImage.wordSelFrom_eq (base n r : Nat) (hn : n ≤ 8) (hfrom : base + (8 - n) ≤ p / 64) (hlast : p / 64 < base + 8)
    (hr : paddedRank B b (64 * (base + (8 - n))) + r = k.toNat) :
    wordSelFrom s base b n r = .ok { w := p / 64 - base, r := k.toNat - paddedRank B b (64 * (p / 64)), x := wordOf s b (p / 64) } := by
  induction n generalizing r with
  | zero => omega
  | succ n ih =>
    rw [show 8 - (n + 1) = 7 - n by omega] at hfrom hr
    have hv : base + (7 - n) < wordsFor B.length := lt_of_le_of_lt (by omega) (bitPos_word_lt hp)
    have hcount := h.popcountBelow_wordOf b (base + (7 - n)) 64 hv (Nat.le_refl 64)
    have hnext : 64 * (base + (7 - n)) + 64 = 64 * (base + (8 - n)) := by omega
    have htest := paddedRank_lt_iff hp (64 * (base + (8 - n)))
    rw [hnext] at hcount
    rw [wordSelFrom_step s base b n r _ (h.readW_ok _ hv), ← wordOf, popcount]
    split
    next hreached =>
      have hword : p / 64 = base + (7 - n) := by omega
      rw [hword, Nat.add_sub_cancel_left, ← hr, Nat.add_sub_cancel_left]
    next hbelow => exact ih _ (by omega) (by omega) (by omega)

/-- The bit of the `k`-th `b`-bit inside its word (R171). -/
theorem IsImage.bitSel_eq : bitSel (wordOf s b (p / 64)) (k.toNat - paddedRank B b (64 * (p / 64))) = some (p % 64) := by
  have hlt : p % 64 < 64 := Nat.mod_lt p (by decide)
  have hv := bitPos_word_lt hp
  have hbit := h.getLsbD_wordOf b (p / 64) (p % 64) hv hlt
  have hcount := h.popcountBelow_wordOf b (p / 64) (p % 64) hv hlt.le
  have hbefore := paddedRank_bitPos_add_one hp
  rw [Nat.div_add_mod] at hbit hcount
  rw [getElem?_of_bitPos hp, Option.getD_some, beq_self_eq_true] at hbit
  exact Machine.bitSel_eq _ _ _ hlt hbit (by omega) (by omega)

/-- SCAN in the superblock of the `k`-th `b`-bit answers its position (R173, R174). -/
theorem IsImage.scan_eq (rem : Word) (hrem : paddedRank B b (p / 4096 * 4096) + rem.toNat = k.toNat) :
    scan s (p / 4096) rem b = .ok (BitVec.ofNat 64 p) := by
  have hmeta := h.metaAt_ok (p / 4096) (bitPos_superblock_lt hp)
  have hblk := h.blkSel_eq hp hrem
  have hrem2 := h.add_toNat_remInBlock hp hrem
  have hbase : blockBase (p / 4096) (p / 512 % 8) = p / 512 * 8 := by
    rw [blockBase]
    omega
  have hword := h.wordSelFrom_eq hp (p / 512 * 8) 8 _ (Nat.le_refl 8) (by omega) (by omega)
    (by rwa [show 64 * (p / 512 * 8 + (8 - 8)) = p / 512 * 512 by omega])
  have hpos : p / 4096 * 4096 + p / 512 % 8 * 512 + (p / 64 - p / 512 * 8) * 64 + p % 64 = p := by omega
  simp only [scan, hmeta, ok_bind, hblk, wordSel, hbase, hword, h.bitSel_eq hp, pure_eq_ok, posOf, hpos]

end

/-- Settles O25: the remaining count is what is left of `k` inside the superblock, which has 4096 positions. -/
theorem scanFindsTheBit : Obligations.ScanFindsTheBit := by
  unfold Obligations.ScanFindsTheBit
  intro B s k b h hk hle
  obtain ⟨p, hp⟩ := h.exists_bitPos hk hle
  have hrem := h.add_toNat_rem hp
  have hbefore := paddedRank_bitPos_add_one hp
  have hsuper := (paddedRank_lt_iff hp (p / 4096 * 4096)).mpr (Nat.div_mul_le_self p 4096)
  have hwithin := paddedRank_add_le B b (p / 4096 * 4096) (p % 4096)
  rw [Nat.div_add_mod'] at hwithin
  have hmod := Nat.mod_lt p (show 4096 > 0 by decide)
  exact ⟨_, _, p, h.locate_eq hp, h.cum_eq b _ (bitPos_superblock_lt hp), by omega, by omega, hp,
    h.scan_eq hp _ hrem, bitPos_lt_length hp⟩

end Sys2Proof.Machine
end

section
/-! SELECT (42_select_locate.md R140 to R142): the order of its tests, and its response on a valid image. -/

namespace Sys2Proof.Machine

/-! ### The tests in their order -/

theorem runQuery_notReady (s : State) (body : Except Fault Word) (hready : s.ready = false) : runQuery s body = .fault .notReady := by
  simp [runQuery, hready]

theorem runQuery_empty (s : State) (body : Except Fault Word) (hready : s.ready = true) (hn : s.regN = 0#64) :
    runQuery s body = .fault .empty := by
  simp [runQuery, hready, hn]

/-- The select command of either bit value (30_encoding.md R82). -/
theorem exec_select (s : State) (k : Word) (b : Bool) : exec (if b then .select1 k else .select0 k) s = runQuery s (select s k b) := by
  cases b <;> rfl

section
variable (s : State) (k : Word) (b : Bool)

/-- The sentinel comes before the test against the total (R140). -/
theorem select_zero : select s 0#64 b = .ok 0#64 := if_pos rfl

theorem select_of_total_lt (hk : k ≠ 0#64) (h : s.total b < k) : select s k b = .error .selectRange := by
  rw [select, if_neg hk, if_pos h]

/-- The fast path (R140). -/
theorem select_total (hk : s.total b ≠ 0#64) : select s (s.total b) b = .ok (s.lastPos b) := by
  rw [select, if_neg hk, if_neg (BitVec.lt_irrefl _), if_pos rfl]

theorem select_of_lt_total (hk : k ≠ 0#64) (h : k < s.total b) : select s k b = selectGeneral s k b := by
  rw [select, if_neg hk, if_neg (BitVec.not_lt.mpr (BitVec.le_of_lt h)), if_neg (BitVec.ne_of_lt h)]

end

/-- Settles O23: each test decides alone once those before it have passed, and the general path stops at the first of its parts that faults. -/
theorem selectTestsInOrder : Obligations.SelectTestsInOrder := by
  unfold Obligations.SelectTestsInOrder
  intro s k b
  simp only [Answers, exec_select]
  refine ⟨runQuery_notReady s _, runQuery_empty s _, fun hready hn hsupported => ⟨?sentinel, ?range, ?fast, ?general⟩⟩
  case sentinel =>
    rintro rfl
    rw [select_zero, runQuery_ok s _ hready hn hsupported]
  case range =>
    intro hk hlt
    rw [select_of_total_lt s k b hk hlt, runQuery_error s _ hready hn hsupported]
  case fast =>
    rintro hk rfl
    exact (congrArg (runQuery s) (select_total s b hk)).trans (runQuery_ok s _ hready hn hsupported)
  case general =>
    intro hk hlt
    rw [select_of_lt_total s k b hk hlt, selectGeneral]
    refine ⟨?answer, ?locate, ?count, ?scan⟩
    case answer =>
      intro t c p ht hc hp
      rw [ht, ok_bind, hc, ok_bind, hp, runQuery_ok s _ hready hn hsupported]
    case locate =>
      intro f ht
      rw [ht, error_bind, runQuery_error s _ hready hn hsupported]
    case count =>
      intro t f ht hc
      rw [ht, ok_bind, hc, error_bind, runQuery_error s _ hready hn hsupported]
    case scan =>
      intro t c f ht hc hp
      rw [ht, ok_bind, hc, ok_bind, hp, runQuery_error s _ hready hn hsupported]

/-! ### The response on a valid image -/

section
variable {B : List Bool} {s : State} (h : IsImage B s)
include h

/-- The general path answers the position of the `k`-th `b`-bit, `k = total(b)` included. -/
theorem IsImage.selectGeneral_eq {b : Bool} {k : Word} {p : Nat} (hp : bitPos B b k.toNat = some p) :
    selectGeneral s k b = .ok (BitVec.ofNat 64 p) := by
  have hcum := h.cum_eq b _ (bitPos_superblock_lt hp)
  rw [selectGeneral, h.locate_eq hp, ok_bind, hcum, ok_bind, h.scan_eq hp _ (h.add_toNat_rem hp)]

/-- The cached last position is that of the last occurrence (10_state.md R36). -/
theorem IsImage.lastPos_eq {b : Bool} {p : Nat} (hp : bitPos B b (s.total b).toNat = some p) : s.lastPos b = BitVec.ofNat 64 p := by
  obtain ⟨hpos, -⟩ := ((bitPosIsTheMthOccurrence B b _).1 p).mp hp
  have hlast : IsLast B b (s.lastPos b).toNat := by
    cases b with
    | true => exact h.lastOne hpos
    | false => exact h.lastZero hpos
  rw [h.toNat_total b] at hp
  rw [← hlast.bitPos_eq hp, BitVec.ofNat_toNat, BitVec.setWidth_eq]

/-- SELECT on an image, by the fast path or the general one (R141, R142). -/
theorem IsImage.select_eq {b : Bool} {k : Word} (hk : 1#64 ≤ k) (hle : k ≤ s.total b) :
    ∃ p, bitPos B b k.toNat = some p ∧ p < B.length ∧ select s k b = .ok (BitVec.ofNat 64 p) := by
  obtain ⟨p, hp⟩ := h.exists_bitPos hk hle
  have hne : k ≠ 0#64 := by bv_omega
  refine ⟨p, hp, bitPos_lt_length hp, ?_⟩
  by_cases htotal : k = s.total b
  · subst htotal
    rw [select_total s b hne, h.lastPos_eq hp]
  · rw [select_of_lt_total s k b hne (BitVec.lt_of_le_ne hle htotal), h.selectGeneral_eq hp]

end

/-- Settles O26: both commands answer what SELECT computes on the image. -/
theorem selectFindsTheKthBit : Obligations.SelectFindsTheKthBit := by
  unfold Obligations.SelectFindsTheKthBit
  intro B s k h hready hk
  refine ⟨fun hle => ?select1, fun hle => ?select0⟩
  case select1 =>
    obtain ⟨p, hp, hlt, hselect⟩ := h.select_eq (b := true) hk hle
    exact ⟨p, hp, hlt, (h.queryable hready).answers _ _ hselect⟩
  case select0 =>
    obtain ⟨p, hp, hlt, hselect⟩ := h.select_eq (b := false) hk hle
    exact ⟨p, hp, hlt, (h.queryable hready).answers _ _ hselect⟩

/-- Settles O27: the general path at the total answers the position of the last occurrence, which is the cached one. -/
theorem fastPathAgreesWithTheGeneralPath : Obligations.FastPathAgreesWithTheGeneralPath := by
  unfold Obligations.FastPathAgreesWithTheGeneralPath
  intro B s b h hk
  obtain ⟨p, hp⟩ := h.exists_bitPos hk (BitVec.le_refl _)
  rw [h.selectGeneral_eq hp, h.lastPos_eq hp]

end Sys2Proof.Machine
end

section
/-! BITSEL as its own rule (43_select_scan.md R171), and the source's reference procedure for it (R170). -/

namespace Sys2Proof.Machine

/-! ### The `r`-th set bit -/

theorem popcountBelow_succ (x : Word) (n : Nat) : popcountBelow x (n + 1) = popcountBelow x n + (x.getLsbD n).toNat := rfl

/-- Every count from 1 to that of the bits below `n` is reached at one of them. -/
theorem exists_setBit_of_le (x : Word) (n r : Nat) (hr : 1 ≤ r) (hle : r ≤ popcountBelow x n) :
    ∃ j < n, x.getLsbD j = true ∧ popcountBelow x j + 1 = r := by
  induction n with
  | zero =>
    rw [popcountBelow] at hle
    omega
  | succ n ih =>
    by_cases hbelow : r ≤ popcountBelow x n
    · obtain ⟨j, hj, hspec⟩ := ih hbelow
      exact ⟨j, hj.trans (Nat.lt_succ_self n), hspec⟩
    · rw [popcountBelow] at hle
      cases hbit : x.getLsbD n with
      | false =>
        rw [hbit, Bool.toNat_false] at hle
        omega
      | true =>
        rw [hbit, Bool.toNat_true] at hle
        exact ⟨n, Nat.lt_succ_self n, hbit, by omega⟩

/-- The bits below a set bit hold fewer set bits than those below any later position. -/
theorem popcountBelow_lt_of_setBit (x : Word) (j j' : Nat) (hbit : x.getLsbD j = true) (h : j < j') :
    popcountBelow x j < popcountBelow x j' := by
  have hmono := popcountBelow_mono x (j + 1) j' h
  rw [popcountBelow, hbit, Bool.toNat_true] at hmono
  exact hmono

/-- Two set bits with as many set bits below them are the same one. -/
theorem setBit_unique (x : Word) (j j' : Nat) (hbit : x.getLsbD j = true) (hbit' : x.getLsbD j' = true)
    (hcount : popcountBelow x j = popcountBelow x j') : j = j' := by
  rcases Nat.lt_trichotomy j j' with hlt | heq | hgt
  · exact absurd hcount (popcountBelow_lt_of_setBit x j j' hbit hlt).ne
  · exact heq
  · exact absurd hcount (popcountBelow_lt_of_setBit x j' j hbit' hgt).ne'

/-- The bits past bit 63 are clear, so no bound counts more than `popcount`. -/
theorem popcountBelow_le_popcount (x : Word) (n : Nat) : popcountBelow x n ≤ popcount x := by
  induction n with
  | zero => exact Nat.zero_le _
  | succ n ih =>
    rcases Nat.lt_or_ge n 64 with hin | hpast
    · exact popcountBelow_mono x (n + 1) 64 hin
    · rw [popcountBelow, BitVec.getLsbD_of_ge x n hpast]
      exact ih

/-! ### BITSEL -/

/-- The scan of a word answers nothing where fewer than `r` set bits are left (log 18). -/
theorem bitSelFrom_eq_none (x : Word) (n r : Nat) (hn : n ≤ 64) (h : popcount x < popcountBelow x (64 - n) + r) :
    bitSelFrom x n r = none := by
  induction n generalizing r with
  | zero => rfl
  | succ n ih =>
    have hfrom : 64 - (n + 1) = 63 - n := by omega
    have hfrom' : 64 - n = 63 - n + 1 := by omega
    have hnext := popcountBelow_succ x (63 - n)
    have hle := popcountBelow_le_popcount x (63 - n + 1)
    rw [hfrom] at h
    rw [hfrom'] at ih
    rw [bitSelFrom]
    split
    next hset =>
      rw [hset, Bool.toNat_true] at hnext
      rw [if_neg (by omega)]
      exact ih (r - 1) (by omega) (by omega)
    next hclear =>
      rw [Bool.eq_false_iff.mpr hclear, Bool.toNat_false] at hnext
      exact ih r (by omega) (by omega)

/-- Settles O39: the set bit with `r - 1` set bits below it exists, BITSEL answers it, and no other set bit has that count. -/
theorem bitSelIsTheRthSetBit : Obligations.BitSelIsTheRthSetBit := by
  unfold Obligations.BitSelIsTheRthSetBit
  intro x r
  refine ⟨fun h0 => if_pos h0, fun hr hle => ?inRange, fun hpast => ?pastThePopcount⟩
  case inRange =>
    obtain ⟨j, hj, hbit, hcount⟩ := exists_setBit_of_le x 64 r hr hle
    refine ⟨j, bitSel_eq x r j hj hbit hr hcount, hj, hbit, ?_, fun j' hj' hbit' hcount' => ?_⟩
    · rw [popcount_and_lowMask x j hj]
      omega
    · rw [popcount_and_lowMask x j' hj'] at hcount'
      exact setBit_unique x j' j hbit' hbit (by omega)
  case pastThePopcount =>
    rw [bitSel, if_neg (by omega)]
    exact bitSelFrom_eq_none x 64 r (Nat.le_refl 64) (by rwa [Nat.sub_self, popcountBelow, Nat.zero_add])

/-! ### The reference procedure -/

/-- The loop ends as soon as `r` is 0, whatever fuel is left. -/
theorem referenceLoop_zero (fuel : Nat) (x : Word) (idx1 : Nat) : referenceLoop fuel 0 x idx1 = some (idx1 - 1) := by
  cases fuel <;> rfl

/-- After `i` iterations the loop has shifted the word by `i`; the next one takes bit `i` of it off `r`. -/
theorem referenceLoop_succ (x : Word) (fuel r i : Nat) (hr : r ≠ 0) :
    referenceLoop (fuel + 1) r (x >>> i) i = referenceLoop fuel (r - (x.getLsbD i).toNat) (x >>> (i + 1)) (i + 1) := by
  have hlow : ((x >>> i) &&& 1#64).toNat = (x.getLsbD i).toNat := by
    rw [← bitOf, bitOf_eq]
    cases x.getLsbD i <;> rfl
  obtain ⟨r, rfl⟩ := Nat.exists_eq_succ_of_ne_zero hr
  rw [referenceLoop, hlow, BitVec.shiftRight_add]

/-- The loop reaches the set bit with `r - 1` set bits before it from bit `i` on, when the fuel goes that far. -/
theorem referenceLoop_eq (x : Word) (fuel r i j : Nat) (hbit : x.getLsbD j = true) (hr : 1 ≤ r) (hi : i ≤ j) (hfuel : j < i + fuel)
    (hcount : popcountBelow x j + 1 = popcountBelow x i + r) : referenceLoop fuel r (x >>> i) i = some j := by
  induction fuel generalizing r i with
  | zero => omega
  | succ fuel ih =>
    have hnext := popcountBelow_succ x i
    rw [referenceLoop_succ x fuel r i (by omega)]
    rcases hi.eq_or_lt with rfl | hlt
    · rw [hbit, Bool.toNat_true, show r - 1 = 0 by omega, referenceLoop_zero, Nat.add_sub_cancel]
    · have hmono := popcountBelow_mono x (i + 1) j hlt
      exact ih _ (i + 1) (by omega) hlt (by omega) (by omega)

/-- With fewer than `r` set bits from bit `i` on, no fuel brings the loop to its end. -/
theorem referenceLoop_eq_none (x : Word) (fuel r i : Nat) (h : popcount x < popcountBelow x i + r) :
    referenceLoop fuel r (x >>> i) i = none := by
  induction fuel generalizing r i with
  | zero =>
    cases r with
    | zero => exact absurd h (popcountBelow_le_popcount x i).not_gt
    | succ r => rfl
  | succ fuel ih =>
    have hle := popcountBelow_le_popcount x (i + 1)
    have hnext := popcountBelow_succ x i
    rw [referenceLoop_succ x fuel r i (by omega)]
    exact ih _ (i + 1) (by omega)

/-- Settles O40: bit by bit the loop counts down to the bit that BITSEL answers, and past the popcount it never gets there. -/
theorem referenceLoopComputesBitSel : Obligations.ReferenceLoopComputesBitSel := by
  unfold Obligations.ReferenceLoopComputesBitSel
  refine ⟨fun x => rfl, fun x r hr hle => ?inRange, fun x r fuel hpast => ?pastThePopcount⟩
  case inRange =>
    obtain ⟨j, hj, hbit, hcount⟩ := exists_setBit_of_le x 64 r hr hle
    refine ⟨j, ?_, bitSel_eq x r j hj hbit hr hcount, hj, hbit, by omega⟩
    have hloop := referenceLoop_eq x 64 r 0 j hbit hr (Nat.zero_le j) (by omega) (by rw [hcount, popcountBelow, Nat.zero_add])
    rwa [referenceSelect, if_neg (by omega), ← BitVec.ushiftRight_zero x]
  case pastThePopcount =>
    have hloop := referenceLoop_eq_none x fuel r 0 (by rwa [popcountBelow, Nat.zero_add])
    rwa [BitVec.ushiftRight_zero] at hloop

end Sys2Proof.Machine
end

section
/-! BLKSEL on any metadata entry, of a valid image or not (43_select_scan.md R167): the first block whose count reaches `rem`, and the count of the comparators. -/

namespace Sys2Proof.Machine

section
variable (m1 m2 rem : Word) (b : Bool)

/-- The test of the blocks `7 - n, .., 6` in order answers a block from there on: the count of each one before it is below `rem`, and its own is not, unless it is the untested block 7. -/
theorem blkSelFrom_spec (n j : Nat) (hn : n ≤ 7) (hj : blkSelFrom m1 m2 rem b n = j) :
    7 - n ≤ j ∧ j ≤ 7 ∧ (∀ i, 7 - n ≤ i → i < j → blkCnt m1 m2 i b < rem) ∧ (j < 7 → rem ≤ blkCnt m1 m2 j b) := by
  induction n with
  | zero =>
    rw [blkSelFrom] at hj
    subst hj
    exact ⟨Nat.le_refl 7, Nat.le_refl 7, fun i hfrom hlt => absurd hlt hfrom.not_gt, fun hlt => absurd hlt (Nat.lt_irrefl 7)⟩
  | succ n ih =>
    have hfirst : 7 - (n + 1) = 6 - n := by omega
    rw [blkSelFrom] at hj
    rw [hfirst]
    split at hj
    next hreached =>
      subst hj
      exact ⟨Nat.le_refl _, by omega, fun i hfrom hlt => absurd hlt hfrom.not_gt, fun _ => hreached⟩
    next hbelow =>
      obtain ⟨hge, hle, hbefore, hat⟩ := ih (by omega) hj
      refine ⟨by omega, hle, fun i hfrom hlt => ?_, hat⟩
      rcases hfrom.eq_or_lt with rfl | hlater
      · exact BitVec.not_le.mp hbelow
      · exact hbefore i (by omega) hlt

/-- BLKSEL is the first block whose count reaches `rem`, block 7 if none does (R167). -/
theorem blkSel_spec (j : Nat) (hj : blkSel m1 m2 rem b = j) :
    j ≤ 7 ∧ (∀ i < j, blkCnt m1 m2 i b < rem) ∧ (j < 7 → rem ≤ blkCnt m1 m2 j b) := by
  obtain ⟨-, hle, hbefore, hat⟩ := blkSelFrom_spec m1 m2 rem b 7 j (Nat.le_refl 7) hj
  exact ⟨hle, fun i => hbefore i (Nat.zero_le i), hat⟩

/-- Counts that do not fall from one block to the next do not fall from a block to any later one. -/
theorem blkCnt_le_of_le (hstep : ∀ i < 6, blkCnt m1 m2 i b ≤ blkCnt m1 m2 (i + 1) b) (i j : Nat) (hij : i ≤ j) (hj : j < 7) :
    blkCnt m1 m2 i b ≤ blkCnt m1 m2 j b := by
  induction j, hij using Nat.le_induction with
  | base => exact BitVec.le_refl _
  | succ j hij ih => exact BitVec.le_trans (ih (by omega)) (hstep j (by omega))

end

/-- Of the seven comparators as many are below a block `j <= 7` as `j` says. -/
theorem length_filter_lt_range_seven : ∀ j ≤ 7, ((List.range 7).filter (fun i => decide (i < j))).length = j := by decide

/-- Settles O41: for non-decreasing counts the comparators before the block answered are all below `rem`, and no other is. -/
theorem blkSelIsTheFirstBlockReached : Obligations.BlkSelIsTheFirstBlockReached := by
  unfold Obligations.BlkSelIsTheFirstBlockReached
  intro m1 m2 rem b j
  obtain ⟨hle, hbefore, hat⟩ := blkSel_spec m1 m2 rem b j rfl
  refine ⟨hle, hbefore, hat, fun hstep => ?_⟩
  have hbelow : ∀ i ∈ List.range 7, decide (blkCnt m1 m2 i b < rem) = decide (i < j) := by
    intro i hi
    have hi7 : i < 7 := List.mem_range.mp hi
    refine decide_eq_decide.mpr ⟨fun hcount => ?_, hbefore i⟩
    by_contra hge
    have hreached := BitVec.le_trans (hat (by omega)) (blkCnt_le_of_le m1 m2 b hstep j i (by omega) hi7)
    exact BitVec.not_le.mpr hcount hreached
  rw [List.filter_congr hbelow, length_filter_lt_range_seven j hle]

end Sys2Proof.Machine
end

section
/-! The laws that tie RANK and SELECT together on a valid image (43_select_scan.md R174), each once for both bit values. -/

namespace Sys2Proof.Machine

/-- The RANK command of a bit value. -/
def rankCommand (b : Bool) (i : Word) : Instr := if b then .rank1 i else .rank0 i

/-- The SELECT command of a bit value. -/
def selectCommand (b : Bool) (k : Word) : Instr := if b then .select1 k else .select0 k

/-! ### The position of an occurrence -/

/-- An occurrence is the one whose ordinal is 1 more than the count before it (10_state.md R37). -/
theorem bitPos_rankOf_add_one (B : List Bool) (b : Bool) (i : Nat) (h : B[i]? = some b) : bitPos B b (rankOf B b i + 1) = some i :=
  ((bitPosIsTheMthOccurrence B b _).1 i).mpr ⟨Nat.le_add_left 1 _, h, rfl⟩

/-- Up to and with the `k`-th occurrence there are `k`. -/
theorem rankOf_bitPos_succ {B : List Bool} {b : Bool} {k p : Nat} (hp : bitPos B b k = some p) : rankOf B b (p + 1) = k := by
  rw [← paddedRank_eq_rankOf B b (p + 1) (bitPos_lt_length hp), paddedRank_succ_of_getElem? B b p (getElem?_of_bitPos hp),
    paddedRank_bitPos_add_one hp]

/-- A later occurrence has a greater position. -/
theorem bitPos_lt_bitPos {B : List Bool} {b : Bool} {k k' p p' : Nat} (hp : bitPos B b k = some p) (hp' : bitPos B b k' = some p')
    (h : k < k') : p < p' := by
  rw [← Nat.succ_le_iff, ← paddedRank_lt_iff hp' (p + 1), paddedRank_eq_rankOf B b (p + 1) (bitPos_lt_length hp), rankOf_bitPos_succ hp]
  exact h

/-! ### The laws -/

section
variable {B : List Bool} {s : State} (h : IsImage B s) (hready : s.ready = true) {b : Bool}
include h hready

/-- RANK at a position up to `N` answers the count of the occurrences before it (41_rank.md R128, R129). -/
theorem IsImage.answers_rankCommand (i : Word) (hi : i.toNat ≤ B.length) :
    ∃ r : Word, r.toNat = rankOf B b i.toNat ∧ Answers s (rankCommand b i) r := by
  have hle : i ≤ s.regN := by rwa [BitVec.le_def, h.regN]
  have hlength := h.length_le
  have hcount : rankOf B b i.toNat ≤ B.length := List.count_le_length.trans (List.take_sublist _ _).length_le
  refine ⟨BitVec.ofNat 64 (rankOf B b i.toNat), ?_, ?_⟩
  · rw [BitVec.toNat_ofNat, Nat.mod_eq_of_lt (by omega)]
  · cases b with
    | true => exact h.answers_rank1 hready i hle
    | false => exact h.answers_rank0 hready i hle

/-- SELECT of an ordinal in `1..total(b)` answers a position of the sequence, that of the occurrence with this ordinal (R174). -/
theorem IsImage.answers_selectCommand (k : Word) (hk : 1#64 ≤ k) (hle : k ≤ s.total b) :
    ∃ p : Word, bitPos B b k.toNat = some p.toNat ∧ Answers s (selectCommand b k) p := by
  obtain ⟨p, hp, hlt, hselect⟩ := h.select_eq hk hle
  have hlength := h.length_le
  refine ⟨BitVec.ofNat 64 p, ?_, (h.queryable hready).answers _ _ ?_⟩
  · rw [BitVec.toNat_ofNat, Nat.mod_eq_of_lt (by omega), hp]
  · rw [← hselect]
    cases b <;> rfl

/-- The `k`-th occurrence is the last of the first `k` (95_test_vectors.md section 1.2, invariant 3). -/
theorem IsImage.rank_of_select (k : Word) (hk : 1#64 ≤ k) (hle : k ≤ s.total b) :
    ∃ p, Answers s (selectCommand b k) p ∧ Answers s (rankCommand b (p + 1#64)) k := by
  obtain ⟨p, hp, hselect⟩ := h.answers_selectCommand hready k hk hle
  have hlength := h.length_le
  have hlt := bitPos_lt_length hp
  have hnext : (p + 1#64).toNat = p.toNat + 1 := by bv_omega
  obtain ⟨r, hr, hrank⟩ := h.answers_rankCommand hready (b := b) (p + 1#64) (by omega)
  rw [hnext, rankOf_bitPos_succ hp] at hr
  rw [BitVec.eq_of_toNat_eq hr] at hrank
  exact ⟨p, hselect, hrank⟩

/-- An occurrence is found again by its ordinal (invariant 4). -/
theorem IsImage.select_of_rank (i : Word) (hi : B[i.toNat]? = some b) :
    ∃ r, Answers s (rankCommand b i) r ∧ Answers s (selectCommand b (r + 1#64)) i := by
  have hp := bitPos_rankOf_add_one B b _ hi
  obtain ⟨-, hcount⟩ := (bitPosIsTheMthOccurrence B b _).2.mp ⟨_, hp⟩
  have htotal := h.toNat_total b
  obtain ⟨r, hr, hrank⟩ := h.answers_rankCommand hready (b := b) i (bitPos_lt_length hp).le
  rw [← hr] at hp hcount
  have hordinal : (r + 1#64).toNat = r.toNat + 1 := by bv_omega
  obtain ⟨q, hq, hselect⟩ := h.answers_selectCommand hready (b := b) (r + 1#64) (by bv_omega) (by bv_omega)
  rw [hordinal, hp, Option.some_inj] at hq
  rw [← BitVec.eq_of_toNat_eq hq] at hselect
  exact ⟨r, hrank, hselect⟩

/-- The next ordinal is found at a greater position (invariant 5). -/
theorem IsImage.select_lt_select (k : Word) (hk : 1#64 ≤ k) (hlt : k < s.total b) :
    ∃ p q, Answers s (selectCommand b k) p ∧ Answers s (selectCommand b (k + 1#64)) q ∧ p < q := by
  have hnext : (k + 1#64).toNat = k.toNat + 1 := by bv_omega
  obtain ⟨p, hp, hselect⟩ := h.answers_selectCommand hready k hk (BitVec.le_of_lt hlt)
  obtain ⟨q, hq, hselect'⟩ := h.answers_selectCommand hready (b := b) (k + 1#64) (by bv_omega) (by bv_omega)
  exact ⟨p, q, hselect, hselect', bitPos_lt_bitPos hp hq (by omega)⟩

end

/-- Settles O30: the three laws, each for 1-bits and for 0-bits. -/
theorem rankAndSelectAreInverse : Obligations.RankAndSelectAreInverse := by
  unfold Obligations.RankAndSelectAreInverse
  exact fun B s h hready =>
    ⟨h.rank_of_select hready (b := true), h.rank_of_select hready (b := false),
      h.select_of_rank hready (b := true), h.select_of_rank hready (b := false),
      h.select_lt_select hready (b := true), h.select_lt_select hready (b := false)⟩

end Sys2Proof.Machine
end

section
/-! The contract of the commands (60_exceptions.md R190 to R195): what is in contract completes, the empty image is V2 for every command, and the sentinel of SELECT needs no valid image. -/

namespace Sys2Proof.Machine

/-! ### The empty image -/

/-- Settles O12: V2 stands before every command's own computation, and no bits take no words. -/
theorem commandsOnTheEmptyImageAreV2 : Obligations.CommandsOnTheEmptyImageAreV2 := by
  unfold Obligations.CommandsOnTheEmptyImageAreV2
  intro i s hready hn
  have hfault : exec i s = .fault .empty := by
    rw [exec_eq_runQuery_queryBody, runQuery_empty s _ hready hn]
  have hnote : noteOf i s (exec i s) = some .v2Empty := by
    rw [hfault]
    rfl
  rw [State.nw, State.nsb, hn]
  exact ⟨hfault, hnote, rfl, rfl, rfl⟩

/-! ### The sentinel -/

/-- SELECT of 0 completes with 0 once V1, V2 and the supported range are passed, for either bit value (R193). -/
theorem answers_selectCommand_zero (s : State) (b : Bool) (hready : s.ready = true) (hn : s.regN ≠ 0#64) (hsupported : s.supported = true) :
    Answers s (selectCommand b 0#64) 0#64 := by
  rw [Answers, selectCommand, exec_select, select_zero, runQuery_ok s _ hready hn hsupported]

/-- Settles O22: neither bit value looks at its total. -/
theorem selectZeroIsTheSentinel : Obligations.SelectZeroIsTheSentinel := by
  unfold Obligations.SelectZeroIsTheSentinel
  exact fun s hready hn hsupported =>
    ⟨answers_selectCommand_zero s true hready hn hsupported, answers_selectCommand_zero s false hready hn hsupported⟩

/-! ### Commands in contract -/

/-- SELECT completes on an image for every ordinal up to the total, the sentinel included (30_encoding.md R83). -/
theorem IsImage.selectCommand_completes {B : List Bool} {s : State} (h : IsImage B s) (hready : s.ready = true) {b : Bool} (k : Word)
    (hle : k ≤ s.total b) : ∃ v, Answers s (selectCommand b k) v := by
  by_cases hk : k = 0#64
  · subst hk
    obtain ⟨-, hn, hsupported, -⟩ := h.queryable hready
    exact ⟨_, answers_selectCommand_zero s b hready hn hsupported⟩
  · obtain ⟨p, -, hselect⟩ := h.answers_selectCommand hready k (by bv_omega) hle
    exact ⟨p, hselect⟩

/-- Settles O29: each command completes within its own obligation, RANK without needing it. -/
theorem inContractCommandsComplete : Obligations.InContractCommandsComplete := by
  unfold Obligations.InContractCommandsComplete
  rintro i s ⟨hready, ⟨B, h⟩, hoperand⟩
  have hq := h.queryable hready
  cases i with
  | access p =>
    obtain ⟨b, -, haccess⟩ := h.answers_access hready p hoperand
    exact ⟨_, haccess⟩
  | rank0 p => exact ⟨_, hq.answers_rank0 p⟩
  | rank1 p => exact ⟨_, hq.answers_rank1 p⟩
  | select0 k => exact h.selectCommand_completes hready (b := false) k hoperand
  | select1 k => exact h.selectCommand_completes hready (b := true) k hoperand

end Sys2Proof.Machine
end

section
/-! Before `READY` is set (70_reset_and_hazards.md R237), and the LOAD that sets or clears it (R216). -/

namespace Sys2Proof.Machine

/-- Settles O11: V1 stands before every command's own computation. -/
theorem commandsBeforeReadyAreV1 : Obligations.CommandsBeforeReadyAreV1 := by
  unfold Obligations.CommandsBeforeReadyAreV1
  intro i s hready
  have hfault : exec i s = .fault .notReady := by
    rw [exec_eq_runQuery_queryBody, runQuery_notReady s _ hready]
  refine ⟨hfault, ?_⟩
  rw [hfault]
  rfl

/-- A LOAD of 0 or 1 to the control register is accepted whatever `READY` is (20_memory.md R73). -/
theorem execLoad_control (s : State) (v : Bool) (hconfig : configOk s.cfg = true) :
    execLoad 0 6 (if v then 1 else 0) s = .next (s.setReady v) := by
  have hd := decodeLoad_control s.cfg 0 (if v then 1 else 0) rfl (by cases v <;> decide)
  have hbit : (if v then 1 else 0 : Word).getLsbD 0 = v := by cases v <;> rfl
  rw [hbit] at hd
  exact execLoad_accepted s 0 6 _ hconfig _ hd (.inr rfl)

/-- Settles O44: `READY` is no part of the store, nor of what is outside. -/
theorem controlLoadSetsReadyAlone : Obligations.ControlLoadSetsReadyAlone := by
  unfold Obligations.ControlLoadSetsReadyAlone
  intro s v hconfig
  obtain ⟨hscalars, helements, hW, hS, hC1, hC0, hcfg, hepoch⟩ := sameStore_update s v s.pending s.responses
  exact ⟨_, execLoad_control s v hconfig, rfl, hscalars, helements, ⟨hcfg, hepoch, rfl, rfl⟩, hW, hS, hC1, hC0⟩

end Sys2Proof.Machine
end

section
/-! The binary search ends (70_reset_and_hazards.md R244; 42_select_locate.md R150): its interval halves at each iteration. -/

namespace Sys2Proof.Machine

/-- A probe that stops the search stops it with any fuel left. -/
theorem bsearch_step_error (s : State) (k : Word) (b : Bool) (fuel lo hi : Nat) (f : Fault) (hlt : lo < hi)
    (hc : cum s ((lo + hi) / 2) b = .error f) : bsearch s k b (fuel + 1) lo hi = .error f := by
  simp only [bsearch, hlt, if_true, hc, error_bind]

/-- `f` iterations are enough for an interval shorter than `2^f`. -/
theorem bsearch_add_fuel (s : State) (k : Word) (b : Bool) (f extra lo hi : Nat) (h : hi - lo < 2 ^ f) :
    bsearch s k b (f + extra) lo hi = bsearch s k b f lo hi := by
  induction f generalizing lo hi with
  | zero =>
    have hempty : ¬ lo < hi := by omega
    rw [bsearch_done s k b _ lo hi hempty, bsearch_done s k b _ lo hi hempty]
  | succ f ih =>
    rw [Nat.add_right_comm]
    by_cases hlt : lo < hi
    · cases hc : cum s ((lo + hi) / 2) b with
      | error e => rw [bsearch_step_error s k b _ lo hi e hlt hc, bsearch_step_error s k b _ lo hi e hlt hc]
      | ok c =>
        rw [bsearch_step s k b _ lo hi c hlt hc, bsearch_step s k b _ lo hi c hlt hc, ih _ _ (by omega), ih _ _ (by omega)]
    · rw [bsearch_done s k b _ lo hi hlt, bsearch_done s k b _ lo hi hlt]

/-- Every bracket ends at an entry in use, so it is shorter than the fuel needs (R150). -/
theorem bracket_lt (s : State) (b : Bool) (q start stop : Nat) (h : bracketEnd s b q = .ok stop) : stop - start < 2 ^ 64 := by
  have hle := bracketEnd_le s b q stop h
  have hnsb := nsb_le s
  omega

/-- Settles O28: the bracket is short enough for 64 iterations, and where it does not come out nothing is searched. -/
theorem binarySearchNeedsNoMoreFuel : Obligations.BinarySearchNeedsNoMoreFuel := by
  unfold Obligations.BinarySearchNeedsNoMoreFuel
  refine ⟨bsearch_add_fuel, fun s b q start stop _ hstop => ⟨bracketEnd_le s b q stop hstop, bracket_lt s b q start stop hstop⟩, ?_⟩
  intro s k b extra
  simp only [locateByCache]
  cases bracketStart s b (k.toNat / s.cfg.d) with
  | error e => rfl
  | ok start =>
    cases hstop : bracketEnd s b (k.toNat / s.cfg.d) with
    | error e => rfl
    | ok stop => simp only [ok_bind, bsearch_add_fuel s k b 64 extra start stop (bracket_lt s b _ start stop hstop)]

end Sys2Proof.Machine
end

section
/-! The construction of `W` (70_reset_and_hazards.md R218). -/

namespace Sys2Proof.Machine

/-- A character that is neither `'0'` nor `'1'` is skipped, another gives its bit (R218). -/
theorem acceptBits_eq (chars : List Char) :
    acceptBits chars = (chars.filter (fun c => c = '0' || c = '1')).map (fun c => decide (c = '1')) := by
  induction chars with
  | nil => rfl
  | cons c cs ih =>
    rw [acceptBits, ih]
    by_cases h1 : c = '1'
    · simp [h1]
    · by_cases h0 : c = '0' <;> simp [h0, h1]

/-- No bit, no sequence (R241; log 22). -/
theorem loaderSequence_nil (c : Config) : loaderSequence c [] = none := if_neg (by simp)

/-- Settles O46: the accepted bits by recursion on the input, the words bit by bit. -/
theorem packedWordsHoldTheBits : Obligations.PackedWordsHoldTheBits := by
  unfold Obligations.PackedWordsHoldTheBits
  exact ⟨acceptBits_eq, getLsbD_packWord, fun _ _ => ⟨rfl, rfl⟩, loaderSequence_nil⟩

end Sys2Proof.Machine
end

section
/-! The metadata entry under construction (70_reset_and_hazards.md R225, R227): what FOLD and the fill at the final word do to each field. -/

namespace Sys2Proof.Machine

/-! ### The fields as digits of one number -/

/-- Where field `b_k` begins in the 128 bits of an entry, `m1` above `m2` (10_state.md R27). -/
def fieldOffset : Nat → Nat
  | 0 => 72
  | 1 => 60
  | k + 2 => 12 * k

/-- The fields do not overlap. -/
theorem fieldOffset_apart : ∀ j < 7, ∀ k < 7, j ≠ k → fieldOffset j + 12 ≤ fieldOffset k ∨ fieldOffset k + 12 ≤ fieldOffset j := by decide

/-- They end below the count `r`. -/
theorem fieldOffset_le : ∀ k < 7, fieldOffset k ≤ 72 := by decide

theorem toNat_fieldB_eq_append (m1 m2 : Word) (k : Nat) (hk : k < 7) :
    (fieldB m1 m2 k).toNat = (m1 ++ m2).toNat / 2 ^ fieldOffset k % 2 ^ 12 := by
  have hm2 := m2.isLt
  rw [toNat_append_eq_mul_add]
  match k, hk with
  | 0, _ =>
    rw [toNat_fieldB_zero, fieldOffset]
    omega
  | 1, _ =>
    rw [toNat_fieldB_one, fieldOffset]
    omega
  | k + 2, hk =>
    have hk5 : k < 5 := by omega
    rw [toNat_fieldB_add_two, fieldOffset]
    interval_cases k <;> simp only [Nat.reduceMul] <;> omega

theorem toNat_fieldR_eq_append (m1 m2 : Word) : (fieldR m1).toNat = (m1 ++ m2).toNat / 2 ^ 84 := by
  have hm2 := m2.isLt
  rw [toNat_append_eq_mul_add, toNat_fieldR]
  omega

/-! ### FOLD -/

/-- A 12-bit value at one offset does not reach the 12 bits at another that is apart. -/
theorem shiftLeft_div_mod_of_apart (val off off' : Nat) (hval : val < 2 ^ 12) (h : off + 12 ≤ off' ∨ off' + 12 ≤ off) :
    val <<< off / 2 ^ off' % 2 ^ 12 = 0 := by
  rw [Nat.shiftLeft_eq]
  obtain h | h := h
  · have hlt : val * 2 ^ off < 2 ^ off' := calc
      val * 2 ^ off < 2 ^ 12 * 2 ^ off := Nat.mul_lt_mul_of_pos_right hval (Nat.two_pow_pos off)
      _ = 2 ^ (off + 12) := by rw [Nat.pow_add, Nat.mul_comm]
      _ ≤ 2 ^ off' := Nat.pow_le_pow_right (by decide) h
    rw [Nat.div_eq_of_lt hlt, Nat.zero_mod]
  · obtain ⟨e, rfl⟩ := Nat.exists_eq_add_of_le h
    have hsplit : val * 2 ^ (off' + 12 + e) = val * 2 ^ e * 2 ^ 12 * 2 ^ off' := by ring
    rw [hsplit, Nat.mul_div_cancel _ (Nat.two_pow_pos off'), Nat.mul_mod_left]

section
variable (blk val : Nat) (u : Builder) (hblk : blk < 7) (hval : val < 2 ^ 12)
include hblk hval

/-- FOLD ors the value into the entry at the offset of the field (R225). -/
theorem toNat_append_foldField :
    ((foldField blk val u).m1 ++ (foldField blk val u).m2).toNat = (u.m1 ++ u.m2).toNat ||| val <<< fieldOffset blk := by
  suffices h : ∃ a b : Word, (foldField blk val u).m1 = u.m1 ||| a ∧ (foldField blk val u).m2 = u.m2 ||| b ∧
      a.toNat * 2 ^ 64 + b.toNat = val <<< fieldOffset blk by
    obtain ⟨a, b, hm1, hm2, hab⟩ := h
    rw [hm1, hm2, ← BitVec.or_append, BitVec.toNat_or, toNat_append_eq_mul_add a b, hab]
  match blk, hblk with
  | 0, _ =>
    refine ⟨_, 0#64, rfl, BitVec.or_zero.symm, ?_⟩
    rw [BitVec.toNat_shiftLeft, BitVec.toNat_ofNat, BitVec.toNat_zero, Nat.shiftLeft_eq, Nat.shiftLeft_eq, fieldOffset]
    omega
  | 1, _ =>
    refine ⟨_, _, rfl, rfl, ?_⟩
    have hlow : (BitVec.ofNat 64 val &&& 0xF#64).toNat = val % 2 ^ 4 := by
      rw [BitVec.toNat_and, BitVec.toNat_ofNat, Nat.mod_eq_of_lt (by omega)]
      exact Nat.and_two_pow_sub_one_eq_mod val 4
    rw [BitVec.toNat_ushiftRight, BitVec.toNat_shiftLeft, hlow, BitVec.toNat_ofNat, Nat.shiftRight_eq_div_pow, Nat.shiftLeft_eq,
      Nat.shiftLeft_eq, fieldOffset]
    omega
  | k + 2, hk =>
    have hk5 : k < 5 := by omega
    refine ⟨0#64, _, BitVec.or_zero.symm, rfl, ?_⟩
    rw [BitVec.toNat_zero, BitVec.toNat_shiftLeft, BitVec.toNat_ofNat, Nat.shiftLeft_eq, Nat.shiftLeft_eq, fieldOffset]
    interval_cases k <;> simp only [Nat.reduceMul] <;> omega

/-- FOLD changes its own field and no other. -/
theorem toNat_fieldB_foldField (j : Nat) (hj : j < 7) :
    (fieldB (foldField blk val u).m1 (foldField blk val u).m2 j).toNat =
      (fieldB u.m1 u.m2 j).toNat ||| if j = blk then val else 0 := by
  rw [toNat_fieldB_eq_append _ _ j hj, toNat_fieldB_eq_append _ _ j hj, toNat_append_foldField blk val u hblk hval,
    Nat.or_div_two_pow, Nat.or_mod_two_pow]
  congr 1
  split
  next h => rw [h, Nat.shiftLeft_eq, Nat.mul_div_cancel _ (Nat.two_pow_pos _), Nat.mod_eq_of_lt hval]
  next h => exact shiftLeft_div_mod_of_apart val _ _ hval (fieldOffset_apart blk hblk j hj (Ne.symm h))

/-- FOLD leaves the count `r` alone. -/
theorem fieldR_foldField : fieldR (foldField blk val u).m1 = fieldR u.m1 := by
  apply BitVec.eq_of_toNat_eq
  have hle := fieldOffset_le blk hblk
  have hlt : val <<< fieldOffset blk < 2 ^ 84 := calc
    val <<< fieldOffset blk = val * 2 ^ fieldOffset blk := Nat.shiftLeft_eq _ _
    _ < 2 ^ 12 * 2 ^ 72 := Nat.mul_lt_mul_of_lt_of_le hval (Nat.pow_le_pow_right (by decide) hle) (by decide)
    _ = 2 ^ 84 := by decide
  rw [toNat_fieldR_eq_append _ (foldField blk val u).m2, toNat_append_foldField blk val u hblk hval, Nat.or_div_two_pow,
    Nat.div_eq_of_lt hlt, Nat.or_zero, ← toNat_fieldR_eq_append]

end

/-! ### The folds of one word -/

section
variable (u : Builder) (hval : u.sbOnes < 2 ^ 12)
include hval

/-- The fill ors the running count into the last `k` fields. -/
theorem fillFields_entry (k : Nat) (hk : k ≤ 7) :
    fieldR (fillFields k u).m1 = fieldR u.m1 ∧ ∀ j < 7, (fieldB (fillFields k u).m1 (fillFields k u).m2 j).toNat =
      (fieldB u.m1 u.m2 j).toNat ||| if 7 - k ≤ j then u.sbOnes else 0 := by
  induction k generalizing u with
  | zero =>
    refine ⟨rfl, fun j hj => ?_⟩
    rw [if_neg (by omega), Nat.or_zero, fillFields]
  | succ k ih =>
    have hsb : (foldField (6 - k) u.sbOnes u).sbOnes = u.sbOnes := by
      obtain ⟨_, _, hfold⟩ := foldField_frame (6 - k) u.sbOnes u
      rw [hfold]
    obtain ⟨hr, hb⟩ := ih (foldField (6 - k) u.sbOnes u) (by rwa [hsb]) (by omega)
    refine ⟨hr.trans (fieldR_foldField _ _ u (by omega) hval), fun j hj => ?_⟩
    rw [fillFields, hb j hj, toNat_fieldB_foldField _ _ u (by omega) hval j hj, hsb, Nat.or_assoc]
    congr 1
    by_cases h : j = 6 - k
    · rw [if_pos h, if_neg (by omega), if_pos (by omega), Nat.or_zero]
    · rw [if_neg h, Nat.zero_or]
      exact if_congr (by omega) rfl rfl

end

end Sys2Proof.Machine
end

section
/-! What the pass keeps per bit value (70_reset_and_hazards.md R222, R223, R226): the last position, and the superblocks of the occurrences numbered `D`, `2D`, and so on. -/

namespace Sys2Proof.Machine

/-! ### The count before a position -/

theorem rankOf_succ (B : List Bool) (b : Bool) (i : Nat) : rankOf B b (i + 1) = rankOf B b i + (decide (B[i]? = some b)).toNat := by
  rw [rankOf, rankOf, List.take_add_one, List.count_append]
  congr 1
  cases h : B[i]? with
  | none => rfl
  | some x => simp [List.count_singleton, beq_eq_decide, Bool.toNat]

theorem rankOf_mono (B : List Bool) (b : Bool) : Monotone (rankOf B b) := by
  refine monotone_nat_of_le_succ (fun i => ?_)
  rw [rankOf_succ]
  exact Nat.le_add_right _ _

theorem rankOf_le_count (B : List Bool) (b : Bool) (i : Nat) : rankOf B b i ≤ B.count b := (List.take_sublist i B).count_le b

/-- A word that marks the occurrences of `b` from position `lo` on counts them. -/
theorem rankOf_add_popcountBelow (B : List Bool) (b : Bool) (x : Word) (lo n : Nat)
    (h : ∀ j < n, x.getLsbD j = decide (B[lo + j]? = some b)) : rankOf B b (lo + n) = rankOf B b lo + popcountBelow x n := by
  induction n with
  | zero => rfl
  | succ n ih =>
    rw [← Nat.add_assoc, rankOf_succ, ih (fun j hj => h j (Nat.lt_succ_of_lt hj)), popcountBelow, h n (Nat.lt_succ_self n), Nat.add_assoc]

/-! ### The pass, one bit value at a time -/

/-- The running total of `b` (R219). -/
def Builder.count (u : Builder) (b : Bool) : Nat := if b then u.oneCount else u.zeroCount

/-- The last position of `b` so far (R219). -/
def Builder.lastPos (u : Builder) (b : Bool) : Nat := if b then u.lastOnePos else u.lastZeroPos

/-- The cache of `b` so far (R219). -/
def Builder.cache (u : Builder) (b : Bool) : List CacheEntry := if b then u.c1 else u.c0

/-- The word with a one at each `b`-bit of the sequence: the padding counts for neither value (R220, R222, R223). -/
def occurrences (n v : Nat) (w : Word) (b : Bool) : Word := if b then w else ~~~w &&& validMask n v

/-- The `b`-bits of one word (R221). -/
def gain (n v : Nat) (w : Word) (b : Bool) : Nat := if b then popcount w else validBits n v - popcount w

/-- What one word does to the count, the last position and the cache of each value. -/
theorem passWord_value (c : Config) (n v : Nat) (w : Word) (u : Builder) (b : Bool) :
    (passWord c n v w u).count b = u.count b + gain n v w b ∧
    (passWord c n v w u).lastPos b =
      (if 0 < gain n v w b then ((clz? (occurrences n v w b)).map (fun z => v * 64 + 63 - z)).getD (u.lastPos b) else u.lastPos b) ∧
    (passWord c n v w u).cache b = appendOnCross c.d (u.count b) (u.count b + gain n v w b) v (u.cache b) := by
  obtain ⟨m1, m2, hblock⟩ := foldBlock_frame v (accumulate w (countAndCache c n v w u))
  obtain ⟨m1', m2', hlast⟩ := fillLast_frame n v { accumulate w (countAndCache c n v w u) with m1 := m1, m2 := m2 }
  obtain ⟨_, _, _, _, _, hcommit⟩ := commit_frame c n v { accumulate w (countAndCache c n v w u) with m1 := m1', m2 := m2' }
  rw [passWord, hblock, hlast, hcommit]
  cases b <;> exact ⟨rfl, rfl, rfl⟩

section
variable (c : Config) (B : List Bool) (k : Nat) (b : Bool)

theorem passWords_count (hk : k ≤ wordsFor B.length) : (passWords c B k).count b = rankOf B b (64 * k) := by
  cases b with
  | true => exact passWords_oneCount c B k
  | false => exact passWords_zeroCount c B k hk

/-- What one word adds to the count before it. -/
theorem rankOf_word_succ (hk : k < wordsFor B.length) :
    rankOf B b (64 * (k + 1)) = rankOf B b (64 * k) + gain B.length k (packWord B k) b := by
  obtain ⟨hcount, -⟩ := passWord_value Config.default B.length k (packWord B k) (passWords Config.default B k) b
  rw [← passWords_count Config.default B (k + 1) b hk, ← passWords_count Config.default B k b hk.le]
  exact hcount

theorem gain_le_64 (n v : Nat) (w : Word) : gain n v w b ≤ 64 := by
  have hones := popcount_le w
  have hvalid := validBits_le n v
  unfold gain
  split <;> omega

/-- Bit `j` of the marking word marks position `64*k + j`. -/
theorem getLsbD_occurrences (j : Nat) (hk : k < wordsFor B.length) (hj : j < 64) :
    (occurrences B.length k (packWord B k) b).getLsbD j = decide (B[64 * k + j]? = some b) := by
  cases b with
  | true =>
    rw [occurrences, if_pos rfl, getLsbD_packWord B k j hj]
    cases B[64 * k + j]? with
    | none => rfl
    | some x => cases x <;> rfl
  | false =>
    have hvalid := validBits_eq B.length k hk
    have hmask : (validMask B.length k).getLsbD j = decide (64 * k + j < B.length) := by
      rw [validMask, BitVec.getLsbD_ofNat, Nat.testBit_two_pow_sub_one, decide_eq_true hj, Bool.true_and, decide_eq_decide]
      omega
    rw [occurrences, if_neg (by decide), BitVec.getLsbD_and, BitVec.getLsbD_not, decide_eq_true hj, Bool.true_and,
      getLsbD_packWord B k j hj, hmask]
    by_cases hlt : 64 * k + j < B.length
    · rw [List.getElem?_eq_getElem hlt, decide_eq_true hlt]
      cases B[64 * k + j] <;> rfl
    · rw [List.getElem?_eq_none (not_lt.mp hlt), decide_eq_false hlt]
      rfl

end

/-! ### The last position -/

/-- The highest 1-bit below `n`, where there is one. -/
theorem topBitBelow_of_pos (x : Word) (n : Nat) (h : 0 < popcountBelow x n) :
    ∃ j < n, topBitBelow x n = some j ∧ x.getLsbD j = true ∧ ∀ i, j < i → i < n → x.getLsbD i = false := by
  induction n with
  | zero => exact absurd h (Nat.lt_irrefl 0)
  | succ n ih =>
    rw [topBitBelow]
    cases hbit : x.getLsbD n with
    | true => exact ⟨n, Nat.lt_succ_self n, rfl, hbit, fun i hi hi' => by omega⟩
    | false =>
      rw [popcountBelow, hbit, Bool.toNat_false, Nat.add_zero] at h
      obtain ⟨j, hj, htop, hset, habove⟩ := ih h
      refine ⟨j, Nat.lt_succ_of_lt hj, htop, hset, fun i hi hi' => ?_⟩
      obtain rfl | hlt := Nat.eq_or_lt_of_le (Nat.le_of_lt_succ hi')
      · exact hbit
      · exact habove i hi hlt

/-- `p` is the last position of `b` before position `i`; 0 where there is none (R233). -/
def LastBefore (B : List Bool) (b : Bool) (i p : Nat) : Prop :=
  (0 < rankOf B b i → B[p]? = some b ∧ p < i ∧ ∀ q, p < q → q < i → B[q]? ≠ some b) ∧ (rankOf B b i = 0 → p = 0)

section
variable {B : List Bool} {b : Bool} {lo hi p : Nat}

/-- Positions without a `b` leave the last one as it is. -/
theorem LastBefore.extend (h : LastBefore B b lo p) (hle : lo ≤ hi) (hrank : rankOf B b hi = rankOf B b lo)
    (hclear : ∀ q, lo ≤ q → q < hi → B[q]? ≠ some b) : LastBefore B b hi p := by
  obtain ⟨hbefore, hnone⟩ := h
  rw [← hrank] at hbefore hnone
  refine ⟨fun hpos => ?_, hnone⟩
  obtain ⟨hbit, hlt, hafter⟩ := hbefore hpos
  refine ⟨hbit, hlt.trans_le hle, fun q hq hq' => ?_⟩
  by_cases hold : q < lo
  · exact hafter q hq hold
  · exact hclear q (not_lt.mp hold) hq'

/-- A `b` with none after it before `hi`. -/
theorem lastBefore_of_bit (hbit : B[p]? = some b) (hlt : p < hi) (hclear : ∀ q, p < q → q < hi → B[q]? ≠ some b) :
    LastBefore B b hi p := by
  refine ⟨fun _ => ⟨hbit, hlt, hclear⟩, fun hzero => ?_⟩
  have hnext := rankOf_succ B b p
  have hmono : rankOf B b (p + 1) ≤ rankOf B b hi := rankOf_mono B b hlt
  rw [decide_eq_true hbit, Bool.toNat_true] at hnext
  omega

end

section
variable (c : Config) (B : List Bool) (k : Nat) (b : Bool)

/-- A position of word `k` that the marking word does not mark holds no `b`. -/
theorem ne_of_getLsbD_occurrences (hk : k < wordsFor B.length) (q : Nat) (hlo : 64 * k ≤ q) (hhi : q < 64 * (k + 1))
    (hclear : (occurrences B.length k (packWord B k) b).getLsbD (q - 64 * k) = false) : B[q]? ≠ some b := by
  rw [getLsbD_occurrences B k b _ hk (by omega), Nat.add_sub_cancel' hlo] at hclear
  exact of_decide_eq_false hclear

/-- The pass keeps the last position of each value (R222, R223). -/
theorem passWords_lastPos (hk : k ≤ wordsFor B.length) : LastBefore B b (64 * k) ((passWords c B k).lastPos b) := by
  induction k with
  | zero =>
    refine ⟨fun h => absurd h (by simp [rankOf]), fun _ => ?_⟩
    cases b <;> rfl
  | succ k ih =>
    have hrank := rankOf_word_succ B k b hk
    have hword := getLsbD_occurrences B k b (hk := hk)
    have hclear := ne_of_getLsbD_occurrences B k b hk
    have hcount : rankOf B b (64 * (k + 1)) = _ := rankOf_add_popcountBelow B b _ (64 * k) 64 hword
    obtain ⟨-, hlast, -⟩ := passWord_value c B.length k (packWord B k) (passWords c B k) b
    rw [passWords, hlast]
    split
    next hpos =>
      obtain ⟨j, hj, htop, hset, habove⟩ := topBitBelow_of_pos (occurrences B.length k (packWord B k) b) 64 (by omega)
      rw [hword j hj, decide_eq_true_eq] at hset
      have hp : k * 64 + 63 - (63 - j) = 64 * k + j := by omega
      rw [clz?, htop, Option.map_some, Option.map_some, Option.getD_some, hp]
      exact lastBefore_of_bit hset (by omega) (fun q hq hq' => hclear q (by omega) hq' (habove _ (by omega) (by omega)))
    next hzero =>
      have hnone (j : Nat) (hj : j < 64) : (occurrences B.length k (packWord B k) b).getLsbD j = false := by
        by_contra hset
        have hmono := popcountBelow_lt_of_setBit _ j 64 (Bool.eq_true_of_not_eq_false hset) hj
        omega
      exact (ih (Nat.le_of_succ_le hk)).extend (by omega) (by omega) (fun q hq hq' => hclear q hq hq' (hnone _ (by omega)))

/-! ### The caches -/

/-- Entry `j` is the superblock of the occurrence numbered `(j+1)*D` (10_state.md R37). -/
def CacheOf (d : Nat) (B : List Bool) (b : Bool) (cache : List CacheEntry) : Prop :=
  ∀ j e, cache[j]? = some e → ∃ p, bitPos B b ((j + 1) * d) = some p ∧ e.toNat = p / 4096

variable {B b} in
theorem CacheOf.append {d : Nat} {cache : List CacheEntry} (h : CacheOf d B b cache) {p : Nat} (e : CacheEntry)
    (hp : bitPos B b ((cache.length + 1) * d) = some p) (he : e.toNat = p / 4096) : CacheOf d B b (cache ++ [e]) := by
  intro j x hx
  obtain hlt | rfl | hgt := Nat.lt_trichotomy j cache.length
  · rw [List.getElem?_append_left hlt] at hx
    exact h j x hx
  · obtain rfl : e = x := by simpa using hx
    exact ⟨p, hp, he⟩
  · rw [List.getElem?_eq_none (by simp; omega)] at hx
    cases hx

/-- The occurrence at which the count passes `m` lies between the two positions it was counted at. -/
theorem exists_bitPos_between (lo hi m : Nat) (hlo : rankOf B b lo < m) (hhi : m ≤ rankOf B b hi) :
    ∃ p, bitPos B b m = some p ∧ lo ≤ p ∧ p < hi := by
  obtain ⟨hiff, hexists⟩ := bitPosIsTheMthOccurrence B b m
  obtain ⟨p, hp⟩ := hexists.mpr ⟨by omega, hhi.trans (rankOf_le_count B b hi)⟩
  obtain ⟨-, -, hrank⟩ := (hiff p).mp hp
  have hnext := rankOf_bitPos_succ hp
  refine ⟨p, hp, ?_, ?_⟩
  · by_contra hlt
    have hmono : rankOf B b (p + 1) ≤ rankOf B b lo := rankOf_mono B b (by omega)
    omega
  · by_contra hge
    have hmono : rankOf B b hi ≤ rankOf B b p := rankOf_mono B b (by omega)
    omega

/-- The pass appends the superblock of each occurrence whose number is a multiple of `D` (R226). -/
theorem passWords_cache (hd : 64 ≤ c.d) (hlength : B.length ≤ 2 ^ 44) (hk : k ≤ wordsFor B.length) :
    CacheOf c.d B b ((passWords c B k).cache b) := by
  induction k with
  | zero =>
    intro j e h
    cases b <;> simp [passWords, Builder.start, Builder.cache] at h
  | succ k ih =>
    have hold := ih (Nat.le_of_succ_le hk)
    have hrank := rankOf_word_succ B k b hk
    have hlen : ((passWords c B k).cache b).length = rankOf B b (64 * k) / c.d := by
      rw [← passWords_count c B k b (Nat.le_of_succ_le hk)]
      obtain ⟨h1, h0⟩ := passWords_length_caches c B k hd
      cases b
      · exact h0
      · exact h1
    obtain ⟨-, -, hcache⟩ := passWord_value c B.length k (packWord B k) (passWords c B k) b
    rw [passWords, hcache, passWords_count c B k b (Nat.le_of_succ_le hk), ← hrank]
    unfold appendOnCross
    split
    next hcross =>
      obtain ⟨p, hp, hlo, hhi⟩ := exists_bitPos_between B b (64 * k) (64 * (k + 1)) ((rankOf B b (64 * k) / c.d + 1) * c.d)
        (Nat.lt_mul_of_div_lt (Nat.lt_succ_self _) (by omega)) ((Nat.le_div_iff_mul_le (by omega)).mp hcross)
      have hwords : k < 2 ^ 38 := by
        simp only [wordsFor, ceilDiv] at hk
        omega
      rw [← hlen] at hp
      refine hold.append _ hp ?_
      rw [BitVec.toNat_ofNat]
      omega
    next => exact hold

end

end Sys2Proof.Machine
end

section
/-! The superblock entries of the pass (70_reset_and_hazards.md R224 to R230): the running counters, the entry under construction, and the entries committed. -/

namespace Sys2Proof.Machine

/-! ### What one word does -/

/-- The word at which an entry is committed (R228). -/
def Commits (n v : Nat) : Prop := v % 64 = 63 ∨ v + 1 = wordsFor n

/-- The word whose commit takes the L0 snapshot (R229). -/
def Snapshots (c : Config) (n v : Nat) : Prop := Commits n v ∧ v / 64 + 1 = c.l0sb ∧ c.l0sb * 4096 ≤ n

/-- The pass at word `v` before its commit: counted, accumulated, folded and filled (R232). -/
def beforeCommit (c : Config) (n v : Nat) (w : Word) (u : Builder) : Builder :=
  fillLast n v (foldBlock v (accumulate w (countAndCache c n v w u)))

section
variable (c : Config) (n v : Nat) (w : Word) (u : Builder)

theorem beforeCommit_frame : ∃ m1 m2, beforeCommit c n v w u = { accumulate w (countAndCache c n v w u) with m1 := m1, m2 := m2 } := by
  obtain ⟨m1, m2, hblock⟩ := foldBlock_frame v (accumulate w (countAndCache c n v w u))
  obtain ⟨m1', m2', hlast⟩ := fillLast_frame n v { accumulate w (countAndCache c n v w u) with m1 := m1, m2 := m2 }
  exact ⟨m1', m2', by rw [beforeCommit, hblock, hlast]⟩

/-- At a commit: the L0 counters after the snapshot, if it is taken here, and the next entry begun with the L0 count (R228, R229). -/
theorem passWord_of_commits (h : Commits n v) : ∃ l0Run l0Ones,
    (Snapshots c n v → l0Run = 0 ∧ l0Ones = u.oneCount + popcount w) ∧
    (¬ Snapshots c n v → l0Run = u.l0Run + popcount w ∧ l0Ones = u.l0Ones) ∧
    passWord c n v w u = { beforeCommit c n v w u with
      l0Run := l0Run, l0Ones := l0Ones, sbOnes := 0, m1 := BitVec.ofNat 64 l0Run <<< 20, m2 := 0
      entries := u.entries ++ [(beforeCommit c n v w u).m1, (beforeCommit c n v w u).m2] } := by
  obtain ⟨m1, m2, hbefore⟩ := beforeCommit_frame c n v w u
  have hpass : passWord c n v w u = commit c n v (beforeCommit c n v w u) := rfl
  rw [hpass, commit, if_pos (show v % 64 = 63 ∨ v + 1 = wordsFor n from h), hbefore, snapshot]
  by_cases hsnap : v / 64 + 1 = c.l0sb ∧ c.l0sb * 4096 ≤ n
  · rw [if_pos hsnap]
    exact ⟨_, _, fun _ => ⟨rfl, rfl⟩, fun hnot => absurd ⟨h, hsnap⟩ hnot, rfl⟩
  · rw [if_neg hsnap]
    exact ⟨_, _, fun hyes => absurd hyes.2 hsnap, fun _ => ⟨rfl, rfl⟩, rfl⟩

theorem passWord_of_not_commits (h : ¬ Commits n v) : passWord c n v w u = beforeCommit c n v w u := if_neg h

/-- The running counters after one word (R224, R228, R229). -/
theorem passWord_counters :
    (Commits n v → (passWord c n v w u).sbOnes = 0) ∧
    (¬ Commits n v → (passWord c n v w u).sbOnes = u.sbOnes + popcount w) ∧
    (Snapshots c n v → (passWord c n v w u).l0Run = 0 ∧ (passWord c n v w u).l0Ones = u.oneCount + popcount w) ∧
    (¬ Snapshots c n v → (passWord c n v w u).l0Run = u.l0Run + popcount w ∧ (passWord c n v w u).l0Ones = u.l0Ones) := by
  by_cases h : Commits n v
  · obtain ⟨l0Run, l0Ones, hyes, hno, hpass⟩ := passWord_of_commits c n v w u h
    rw [hpass]
    exact ⟨fun _ => rfl, fun hnot => absurd h hnot, hyes, hno⟩
  · obtain ⟨m1, m2, hbefore⟩ := beforeCommit_frame c n v w u
    rw [passWord_of_not_commits c n v w u h, hbefore]
    exact ⟨fun hyes => absurd hyes h, fun _ => rfl, fun hsnap => absurd hsnap.1 h, fun _ => ⟨rfl, rfl⟩⟩

/-- The fields that word `v` sets: that of the block it ends, and at the final word those from its block on (R225, R227). -/
def Folds (n v j : Nat) : Prop := (v % 8 = 7 ∧ v / 8 % 8 = j) ∨ (v + 1 = wordsFor n ∧ v / 8 % 8 ≤ j)

theorem foldBlock_entry (hval : v / 8 % 8 < 7 → u.sbOnes < 2 ^ 12) :
    fieldR (foldBlock v u).m1 = fieldR u.m1 ∧ ∀ j < 7, (fieldB (foldBlock v u).m1 (foldBlock v u).m2 j).toNat =
      (fieldB u.m1 u.m2 j).toNat ||| if v % 8 = 7 ∧ v / 8 % 8 = j then u.sbOnes else 0 := by
  unfold foldBlock
  split
  next h =>
    obtain ⟨hend, hblk⟩ := h
    have hlt : v / 8 % 8 < 7 := Nat.lt_succ_of_le hblk
    refine ⟨fieldR_foldField _ _ u hlt (hval hlt), fun j hj => ?_⟩
    rw [toNat_fieldB_foldField _ _ u hlt (hval hlt) j hj]
    congr 1
    exact if_congr (by omega) rfl rfl
  next h =>
    refine ⟨rfl, fun j hj => ?_⟩
    rw [if_neg (by omega), Nat.or_zero]

theorem fillLast_entry (hval : v / 8 % 8 < 7 → u.sbOnes < 2 ^ 12) :
    fieldR (fillLast n v u).m1 = fieldR u.m1 ∧ ∀ j < 7, (fieldB (fillLast n v u).m1 (fillLast n v u).m2 j).toNat =
      (fieldB u.m1 u.m2 j).toNat ||| if v + 1 = wordsFor n ∧ v / 8 % 8 ≤ j then u.sbOnes else 0 := by
  unfold fillLast
  split
  next h =>
    by_cases hblk : v / 8 % 8 < 7
    · obtain ⟨hr, hb⟩ := fillFields_entry u (hval hblk) (7 - v / 8 % 8) (Nat.sub_le _ _)
      refine ⟨hr, fun j hj => ?_⟩
      rw [hb j hj]
      congr 1
      exact if_congr (by omega) rfl rfl
    · rw [show 7 - v / 8 % 8 = 0 by omega, fillFields]
      refine ⟨rfl, fun j hj => ?_⟩
      rw [if_neg (by omega), Nat.or_zero]
  next h =>
    refine ⟨rfl, fun j hj => ?_⟩
    rw [if_neg (fun hlast => h hlast.1), Nat.or_zero]

/-- From `m1`, `m2` to `m1'`, `m2'` the count is ored into the fields that word `v` sets, and nothing else changes. -/
def FoldsInto (n v count : Nat) (m1 m2 m1' m2' : Word) : Prop :=
  fieldR m1' = fieldR m1 ∧ ∀ j < 7,
    (Folds n v j → (fieldB m1' m2' j).toNat = (fieldB m1 m2 j).toNat ||| count) ∧
    (¬ Folds n v j → (fieldB m1' m2' j).toNat = (fieldB m1 m2 j).toNat)

/-- The entry before the commit: the running count folded in. -/
theorem beforeCommit_entry (hval : v / 8 % 8 < 7 → u.sbOnes + popcount w < 2 ^ 12) :
    FoldsInto n v (u.sbOnes + popcount w) u.m1 u.m2 (beforeCommit c n v w u).m1 (beforeCommit c n v w u).m2 := by
  have hcount : (accumulate w (countAndCache c n v w u)).sbOnes = u.sbOnes + popcount w := rfl
  have hcount' : (foldBlock v (accumulate w (countAndCache c n v w u))).sbOnes = u.sbOnes + popcount w := by
    obtain ⟨m1, m2, hblock⟩ := foldBlock_frame v (accumulate w (countAndCache c n v w u))
    rw [hblock]
    rfl
  obtain ⟨hr, hb⟩ := foldBlock_entry v (accumulate w (countAndCache c n v w u)) hval
  obtain ⟨hr', hb'⟩ := fillLast_entry n v (foldBlock v (accumulate w (countAndCache c n v w u))) (by rwa [hcount'])
  refine ⟨hr'.trans hr, fun j hj => ?_⟩
  rw [beforeCommit, hb' j hj, hb j hj, hcount', hcount, Nat.or_assoc]
  refine ⟨fun h => ?folded, fun h => ?kept⟩
  case folded =>
    congr 1
    obtain hend | hlast := h
    · rw [if_pos hend]
      split
      · exact Nat.or_self _
      · exact Nat.or_zero _
    · rw [if_pos hlast]
      split
      · exact Nat.or_self _
      · exact Nat.zero_or _
  case kept =>
    rw [if_neg (fun hend => h (.inl hend)), if_neg (fun hlast => h (.inr hlast)), Nat.or_zero, Nat.or_zero]
    rfl

end

end Sys2Proof.Machine
end

section
/-! What the pass has built after each word (70_reset_and_hazards.md R233): every committed entry is that of the image, and the entry under construction has the fields of the blocks that are over. -/

namespace Sys2Proof.Machine

/-- The superblock of the entry under construction after `k` words; after the last word it is the guard (R228, R230). -/
def openSuperblock (n k : Nat) : Nat := if k = wordsFor n then guardFor n else k / 64

/-- The value of `L0Ones` (10_state.md R34). -/
def l0Count (c : Config) (B : List Bool) : Nat := if c.l0sb * 4096 ≤ B.length then ones B 0 (c.l0sb * 4096) else 0

/-- `m1`, `m2` are entry `sb` of the image of `B` (10_state.md R31 to R33). -/
def EntryOf (c : Config) (B : List Bool) (sb : Nat) (m1 m2 : Word) : Prop :=
  (fieldR m1).toNat + (if c.l0sb ≤ sb then l0Count c B else 0) = ones B 0 (sb * 4096) ∧
  ∀ j < 7, (fieldB m1 m2 j).toNat = ones B (sb * 4096) (sb * 4096 + 512 * (j + 1))

/-- `m1`, `m2` are entry `sb` after `k` words: the fields of the blocks that are over, zero in the others. -/
def PartialEntryOf (c : Config) (B : List Bool) (sb k : Nat) (m1 m2 : Word) : Prop :=
  (fieldR m1).toNat + (if c.l0sb ≤ sb then l0Count c B else 0) = ones B 0 (sb * 4096) ∧
  ∀ j < 7, (sb * 4096 + 512 * (j + 1) ≤ 64 * k → (fieldB m1 m2 j).toNat = ones B (sb * 4096) (sb * 4096 + 512 * (j + 1))) ∧
    (64 * k < sb * 4096 + 512 * (j + 1) → (fieldB m1 m2 j).toNat = 0)

/-! ### Positions and words -/

section
variable (n k : Nat)

theorem length_le_wordsFor : n ≤ 64 * wordsFor n := by
  simp only [wordsFor, ceilDiv]
  omega

theorem openSuperblock_of_lt (h : k < wordsFor n) : openSuperblock n k = k / 64 := if_neg h.ne

theorem openSuperblock_succ_of_commits (h : Commits n k) : openSuperblock n (k + 1) = k / 64 + 1 := by
  unfold openSuperblock guardFor ceilDiv
  unfold Commits at h
  split <;> omega

theorem openSuperblock_succ_of_not_commits (h : ¬ Commits n k) : openSuperblock n (k + 1) = k / 64 := by
  unfold openSuperblock
  unfold Commits at h
  rw [if_neg (by omega)]
  omega

/-- A commit comes at the end of its superblock, or at the end of the sequence inside it. -/
theorem Commits.boundary (h : Commits n k) :
    64 * (k + 1) = (k / 64 + 1) * 4096 ∨ (n ≤ 64 * (k + 1) ∧ 64 * (k + 1) ≤ (k / 64 + 1) * 4096) := by
  have hn := length_le_wordsFor n
  unfold Commits at h
  omega

end

/-- What the supported configurations ask of `D` and `L0_SB` (00_scope.md R6, R7). -/
theorem configOk_bounds (c : Config) (h : configOk c = true) : 64 ≤ c.d ∧ 1 ≤ c.l0sb ∧ c.l0sb ≤ 2 ^ 31 := by
  simp only [configOk, Bool.and_eq_true, decide_eq_true_eq] at h
  omega

/-- An empty range has no 1-bits. -/
theorem ones_of_le (B : List Bool) (lo hi : Nat) (h : hi ≤ lo) : ones B lo hi = 0 := by
  have hle := ones_le B lo hi
  omega

/-- Past the end of the sequence a bound can be moved. -/
theorem ones_congr_of_length_le (B : List Bool) (lo hi hi' : Nat) (h : B.length ≤ hi) (h' : B.length ≤ hi') : ones B lo hi = ones B lo hi' := by
  rw [ones_of_length_le B lo hi h, ones_of_length_le B lo hi' h']

/-- At a commit the positions counted are those of the superblock. -/
theorem Commits.ones_eq {B : List Bool} {k : Nat} (h : Commits B.length k) (lo : Nat) : ones B lo (64 * (k + 1)) = ones B lo ((k / 64 + 1) * 4096) := by
  obtain heq | ⟨hlast, hle⟩ := h.boundary
  · rw [heq]
  · exact ones_congr_of_length_le B lo _ _ hlast (hlast.trans hle)

/-! ### An entry just begun -/

theorem toNat_start (l0Run : Nat) (hrun : l0Run < 2 ^ 44) : (BitVec.ofNat 64 l0Run <<< 20).toNat = l0Run * 2 ^ 20 := by
  rw [BitVec.toNat_shiftLeft, BitVec.toNat_ofNat, Nat.shiftLeft_eq]
  omega

/-- The L0 count of a new entry leaves the fields zero (R228). -/
theorem toNat_fieldB_start (l0Run j : Nat) (hrun : l0Run < 2 ^ 44) : (fieldB (BitVec.ofNat 64 l0Run <<< 20) 0 j).toNat = 0 := by
  match j with
  | 0 =>
    rw [toNat_fieldB_zero, toNat_start l0Run hrun]
    omega
  | 1 =>
    rw [toNat_fieldB_one, toNat_start l0Run hrun, BitVec.ofNat_eq_ofNat, BitVec.toNat_zero]
    omega
  | j + 2 => rw [toNat_fieldB_add_two, BitVec.ofNat_eq_ofNat, BitVec.toNat_zero, Nat.zero_div, Nat.zero_mod]

section
variable (c : Config) (B : List Bool) (k : Nat)

/-! ### The counters -/

/-- `superBlockOneCounter` counts the 1-bits of the superblock under construction (R224, R228). -/
theorem passWords_sbOnes (hk : k ≤ wordsFor B.length) :
    (passWords c B k).sbOnes = ones B (openSuperblock B.length k * 4096) (64 * k) := by
  induction k with
  | zero => exact (ones_of_le B _ _ (Nat.zero_le _)).symm
  | succ k ih =>
    obtain ⟨hcommits, hgoes, -⟩ := passWord_counters c B.length k (packWord B k) (passWords c B k)
    rw [passWords]
    by_cases h : Commits B.length k
    · have hboundary := h.boundary
      rw [hcommits h, openSuperblock_succ_of_commits _ _ h, ones_of_le B _ _ (by omega)]
    · rw [hgoes h, ih (Nat.le_of_succ_le hk), popcount_packWord, openSuperblock_succ_of_not_commits _ _ h, openSuperblock_of_lt _ _ hk]
      exact (ones_add B _ _ _ (by omega) (by omega)).symm

/-- The count of the L0 region and the snapshot make up the total (R229). -/
theorem passWords_l0Run_add_l0Ones : (passWords c B k).l0Run + (passWords c B k).l0Ones = (passWords c B k).oneCount := by
  induction k with
  | zero => rfl
  | succ k ih =>
    obtain ⟨hone, -⟩ := passWord_frame c B.length k (packWord B k) (passWords c B k)
    obtain ⟨-, -, hyes, hno⟩ := passWord_counters c B.length k (packWord B k) (passWords c B k)
    rw [passWords, hone]
    by_cases h : Snapshots c B.length k
    · obtain ⟨hrun, hones⟩ := hyes h
      omega
    · obtain ⟨hrun, hones⟩ := hno h
      omega

/-- The snapshot is taken when the pass reaches the L0 boundary, if the sequence does (R229). -/
theorem passWords_l0Ones (hl0 : 1 ≤ c.l0sb) (hk : k ≤ wordsFor B.length) :
    (passWords c B k).l0Ones = if c.l0sb * 4096 ≤ 64 * k then l0Count c B else 0 := by
  induction k with
  | zero => exact (if_neg (by omega)).symm
  | succ k ih =>
    obtain ⟨-, -, hyes, hno⟩ := passWord_counters c B.length k (packWord B k) (passWords c B k)
    rw [passWords]
    by_cases h : Snapshots c B.length k
    · obtain ⟨hcommits, hsb, hlength⟩ := h
      have hboundary := hcommits.boundary
      have hreached : 64 * (k + 1) = c.l0sb * 4096 := by omega
      rw [(hyes ⟨hcommits, hsb, hlength⟩).2, passWords_oneCount, popcount_packWord, if_pos hreached.ge, l0Count, if_pos hlength, ← hreached]
      exact (ones_zero_add B (64 * k) (64 * (k + 1)) (by omega)).symm
    · rw [(hno h).2, ih (Nat.le_of_succ_le hk)]
      by_cases hlength : c.l0sb * 4096 ≤ B.length
      · have hnot : 64 * (k + 1) ≠ c.l0sb * 4096 := fun heq => h ⟨.inl (by omega), by omega, hlength⟩
        exact if_congr (by omega) rfl rfl
      · rw [l0Count, if_neg hlength, ite_self, ite_self]

/-- The count of an L0 region fits the field `r` (10_state.md R38). -/
theorem passWords_l0Run_lt (hconfig : configOk c = true) (hlength : B.length ≤ nMax c) (hk : k ≤ wordsFor B.length) :
    (passWords c B k).l0Run < 2 ^ 44 := by
  obtain ⟨-, hl0, hl0'⟩ := configOk_bounds c hconfig
  have hsum := passWords_l0Run_add_l0Ones c B k
  have hones := ones_zero_add B (c.l0sb * 4096) (64 * k)
  have hlt := ones_le_length_take B (c.l0sb * 4096) (64 * k)
  have hlt' := ones_le_length_take B 0 (64 * k)
  rw [passWords_oneCount, passWords_l0Ones c B k hl0 hk, rankOf, ← ones_zero, l0Count] at hsum
  rw [nMax] at hlength
  split at hsum
  · split at hsum
    · omega
    · omega
  · omega

/-! ### The entry under construction -/

/-- Entry `sb` begun with the L0 count: no block of it is over (R228). -/
theorem partialEntryOf_start (sb k l0Run : Nat) (hk : 64 * k ≤ sb * 4096) (hrun : l0Run < 2 ^ 44)
    (hsum : l0Run + (if c.l0sb ≤ sb then l0Count c B else 0) = ones B 0 (sb * 4096)) :
    PartialEntryOf c B sb k (BitVec.ofNat 64 l0Run <<< 20) 0 := by
  constructor
  · rw [toNat_fieldR, toNat_start l0Run hrun, Nat.mul_div_cancel _ (Nat.two_pow_pos 20)]
    exact hsum
  · exact fun j hj => ⟨fun h => by omega, fun _ => toNat_fieldB_start l0Run j hrun⟩

section
variable {c B k} {m1 m2 m1' m2' : Word} (h : PartialEntryOf c B (k / 64) k m1 m2)
  (hfold : FoldsInto B.length k (ones B (k / 64 * 4096) (64 * (k + 1))) m1 m2 m1' m2')
include h hfold

/-- Inside a superblock a word adds the field of the block it ends (R225). -/
theorem PartialEntryOf.fold (hnot : ¬ Commits B.length k) : PartialEntryOf c B (k / 64) (k + 1) m1' m2' := by
  obtain ⟨hcount, hfields⟩ := h
  obtain ⟨hr, hb⟩ := hfold
  refine ⟨by rwa [hr], fun j hj => ?_⟩
  obtain ⟨hfolds, hkept⟩ := hb j hj
  obtain ⟨hover, hnotOver⟩ := hfields j hj
  unfold Commits at hnot
  unfold Folds at hfolds hkept
  by_cases hend : k % 8 = 7 ∧ k / 8 % 8 = j
  · have hpos : 64 * (k + 1) = k / 64 * 4096 + 512 * (j + 1) := by omega
    rw [hfolds (.inl hend), hnotOver (by omega), Nat.zero_or, hpos]
    exact ⟨fun _ => rfl, fun hlt => absurd hlt (Nat.lt_irrefl _)⟩
  · rw [hkept (by omega)]
    exact ⟨fun hle => hover (by omega), fun hlt => hnotOver (by omega)⟩

/-- At a commit every field counts up to the end of its block (R227, R228). -/
theorem PartialEntryOf.commit (hcommits : Commits B.length k) : EntryOf c B (k / 64) m1' m2' := by
  obtain ⟨hcount, hfields⟩ := h
  obtain ⟨hr, hb⟩ := hfold
  refine ⟨by rwa [hr], fun j hj => ?_⟩
  obtain ⟨hfolds, hkept⟩ := hb j hj
  obtain ⟨hover, hnotOver⟩ := hfields j hj
  unfold Folds at hfolds hkept
  by_cases hle : k / 64 * 4096 + 512 * (j + 1) ≤ 64 * k
  · rw [hkept (by omega), hover hle]
  · have hlast : k + 1 = wordsFor B.length := by
      unfold Commits at hcommits
      omega
    have hn := length_le_wordsFor B.length
    rw [← hlast] at hn
    rw [hfolds (.inr ⟨hlast, by omega⟩), hnotOver (by omega), Nat.zero_or]
    exact ones_congr_of_length_le B _ _ _ hn (by omega)

end

end

end Sys2Proof.Machine
end

section
/-! The entries the pass leaves: one per superblock of the sequence, and the guard (70_reset_and_hazards.md R228, R230). -/

namespace Sys2Proof.Machine

/-- The entries `es` are those of the image of `B`, as far as they go. -/
def EntriesOf (c : Config) (B : List Bool) (es : List Word) : Prop :=
  ∀ sb m1 m2, es[2 * sb]? = some m1 → es[2 * sb + 1]? = some m2 → EntryOf c B sb m1 m2

theorem EntriesOf.append {c : Config} {B : List Bool} {es : List Word} (h : EntriesOf c B es) (sb : Nat) (m1 m2 : Word)
    (hlength : es.length = 2 * sb) (hentry : EntryOf c B sb m1 m2) : EntriesOf c B (es ++ [m1, m2]) := by
  intro i a b ha hb
  obtain hlt | rfl | hgt := Nat.lt_trichotomy i sb
  · rw [List.getElem?_append_left (by omega)] at ha hb
    exact h i a b ha hb
  · rw [List.getElem?_append_right (by omega), hlength] at ha hb
    obtain rfl : m1 = a := by simpa using ha
    obtain rfl : m2 = b := by simpa using hb
    exact hentry
  · rw [List.getElem?_eq_none (by simp; omega)] at ha
    cases ha

section
variable (c : Config) (B : List Bool) (k : Nat)

/-- The entry before the commit of word `k`: what is folded in counts the superblock up to the end of the word. -/
theorem beforeCommit_foldsInto (hk : k < wordsFor B.length) :
    FoldsInto B.length k (ones B (k / 64 * 4096) (64 * (k + 1))) (passWords c B k).m1 (passWords c B k).m2
      (beforeCommit c B.length k (packWord B k) (passWords c B k)).m1 (beforeCommit c B.length k (packWord B k) (passWords c B k)).m2 := by
  have hcount : (passWords c B k).sbOnes + popcount (packWord B k) = ones B (k / 64 * 4096) (64 * (k + 1)) := by
    rw [passWords_sbOnes c B k hk.le, popcount_packWord, openSuperblock_of_lt _ _ hk]
    exact (ones_add B _ _ _ (by omega) (by omega)).symm
  have hle := ones_le B (k / 64 * 4096) (64 * (k + 1))
  rw [← hcount]
  exact beforeCommit_entry c B.length k (packWord B k) (passWords c B k) (fun hblk => by omega)

/-- The next entry begins with the 1-bits of its L0 region so far (R228, R229). -/
theorem l0Run_of_commits (hl0 : 1 ≤ c.l0sb) (hk : k < wordsFor B.length) (h : Commits B.length k) :
    (passWords c B (k + 1)).l0Run + (if c.l0sb ≤ k / 64 + 1 then l0Count c B else 0) = ones B 0 ((k / 64 + 1) * 4096) := by
  have hboundary := h.boundary
  have hsum := passWords_l0Run_add_l0Ones c B (k + 1)
  rw [passWords_oneCount, rankOf, ← ones_zero, h.ones_eq, passWords_l0Ones c B (k + 1) hl0 hk] at hsum
  rw [← hsum]
  congr 1
  by_cases hlength : c.l0sb * 4096 ≤ B.length
  · exact if_congr (by omega) rfl rfl
  · rw [l0Count, if_neg hlength, ite_self, ite_self]

variable (hconfig : configOk c = true) (hlength : B.length ≤ nMax c)
include hconfig hlength

/-- The entry under construction holds the fields of the blocks that are over. -/
theorem passWords_partialEntry (hk : k ≤ wordsFor B.length) :
    PartialEntryOf c B (openSuperblock B.length k) k (passWords c B k).m1 (passWords c B k).m2 := by
  obtain ⟨-, hl0, -⟩ := configOk_bounds c hconfig
  induction k with
  | zero =>
    have hopen : openSuperblock B.length 0 = 0 := by
      unfold openSuperblock guardFor ceilDiv
      split <;> omega
    rw [hopen]
    exact partialEntryOf_start c B 0 0 0 (Nat.le_refl _) (by decide) (by rw [if_neg (by omega), Nat.zero_mul, ones_of_le B 0 0 (Nat.le_refl 0)])
  | succ k ih =>
    have hbefore := ih (Nat.le_of_succ_le hk)
    rw [openSuperblock_of_lt _ _ hk] at hbefore
    have hfold := beforeCommit_foldsInto c B k hk
    by_cases h : Commits B.length k
    · have hboundary := h.boundary
      have hrun := passWords_l0Run_lt c B (k + 1) hconfig hlength hk
      have hsum := l0Run_of_commits c B k hl0 hk h
      obtain ⟨l0Run, l0Ones, -, -, hpass⟩ := passWord_of_commits c B.length k (packWord B k) (passWords c B k) h
      rw [passWords, hpass] at hrun hsum ⊢
      rw [openSuperblock_succ_of_commits _ _ h]
      exact partialEntryOf_start c B (k / 64 + 1) (k + 1) l0Run (by omega) hrun hsum
    · rw [openSuperblock_succ_of_not_commits _ _ h, passWords, passWord_of_not_commits _ _ _ _ _ h]
      exact hbefore.fold hfold h

/-- Every committed entry is that of the image. -/
theorem passWords_entries (hk : k ≤ wordsFor B.length) : EntriesOf c B (passWords c B k).entries := by
  induction k with
  | zero =>
    intro sb m1 m2 h
    simp [passWords, Builder.start] at h
  | succ k ih =>
    have hentries := ih (Nat.le_of_succ_le hk)
    by_cases h : Commits B.length k
    · have hentry := passWords_partialEntry c B k hconfig hlength (Nat.le_of_succ_le hk)
      have hlen := passWords_length_entries c B k (Nat.le_of_succ_le hk)
      rw [openSuperblock_of_lt _ _ hk] at hentry
      rw [if_neg (Nat.ne_of_lt hk)] at hlen
      have hfold := beforeCommit_foldsInto c B k hk
      obtain ⟨_, _, -, -, hpass⟩ := passWord_of_commits c B.length k (packWord B k) (passWords c B k) h
      rw [passWords, hpass]
      exact hentries.append (k / 64) _ _ hlen (hentry.commit hfold h)
    · obtain ⟨_, _, hframe⟩ := beforeCommit_frame c B.length k (packWord B k) (passWords c B k)
      rw [passWords, passWord_of_not_commits _ _ _ _ _ h, hframe]
      exact hentries

end

/-- The guard entry: no 1-bit of the sequence lies in its superblock (R230). -/
theorem PartialEntryOf.guard {c : Config} {B : List Bool} {m1 m2 : Word}
    (h : PartialEntryOf c B (guardFor B.length) (wordsFor B.length) m1 m2) : EntryOf c B (guardFor B.length) m1 m2 := by
  obtain ⟨hcount, hfields⟩ := h
  refine ⟨hcount, fun j hj => ?_⟩
  obtain ⟨-, hnotOver⟩ := hfields j hj
  have hwords : 64 * wordsFor B.length ≤ guardFor B.length * 4096 := by
    simp only [guardFor, ceilDiv]
    omega
  have hle := ones_le_length_take B (guardFor B.length * 4096) (guardFor B.length * 4096 + 512 * (j + 1))
  have hguard := length_le_guardFor B.length
  rw [hnotOver (by omega)]
  omega

/-- What the pass writes to `S` are the entries of the image, the guard included (R233). -/
theorem buildImage_entries (c : Config) (B : List Bool) (hconfig : configOk c = true) (hlength : B.length ≤ nMax c) :
    EntriesOf c B (buildImage c B).s := by
  have hlen := passWords_length_entries c B (wordsFor B.length) (Nat.le_refl _)
  have hguard := passWords_partialEntry c B (wordsFor B.length) hconfig hlength (Nat.le_refl _)
  rw [if_pos rfl] at hlen
  rw [openSuperblock, if_pos rfl] at hguard
  exact (passWords_entries c B _ hconfig hlength (Nat.le_refl _)).append (guardFor B.length) _ _ hlen hguard.guard

end Sys2Proof.Machine
end

section
/-! The block that holds what the pass has built holds the image (70_reset_and_hazards.md R231, R233), whether the loader's transactions put it there (R217) or it stands there alone. -/

namespace Sys2Proof.Machine

/-! ### Holding a built image -/

/-- The cache of `b` in a built image. -/
def Built.cache (u : Built) (b : Bool) : List CacheEntry := if b then u.c1 else u.c0

/-- The block holds a built image: its registers and, element by element, its memories (R231). -/
structure Built.HeldBy (u : Built) (t : State) : Prop where
  regN : t.regN = BitVec.ofNat 64 u.n
  l0Ones : t.l0Ones = BitVec.ofNat 64 u.l0Ones
  oneCount : t.oneCount = BitVec.ofNat 64 u.oneCount
  zeroCount : t.zeroCount = BitVec.ofNat 64 u.zeroCount
  lastOnePos : t.lastOnePos = BitVec.ofNat 64 u.lastOnePos
  lastZeroPos : t.lastZeroPos = BitVec.ofNat 64 u.lastZeroPos
  words : ∀ v x, u.w[v]? = some x → t.elemW v = x
  entries : ∀ v x, u.s[v]? = some x → t.elemS v = x
  caches : ∀ b j e, (u.cache b)[j]? = some e → t.elemC b j = e

theorem memGet_memOf {k : Nat} (vs : List (BitVec k)) (i j : Nat) (x : BitVec k) (h : vs[j]? = some x) : memGet (memOf i vs) (i + j) = some x := by
  induction vs generalizing i j with
  | nil => simp at h
  | cons v vs ih =>
    cases j with
    | zero => simpa [memOf, memGet] using h
    | succ j =>
      have hnext := ih (i + 1) j h
      rw [Nat.add_assoc, Nat.add_comm 1] at hnext
      rw [memOf, memGet, if_neg (by omega), hnext]

/-- The elements of a block whose memories answer with the lists of a built image. -/
theorem elems_of_memGet (u : Built) (t : State) (hW : ∀ v x, u.w[v]? = some x → memGet t.memW v = some x)
    (hS : ∀ v x, u.s[v]? = some x → memGet t.memS v = some x) (hC1 : ∀ j e, u.c1[j]? = some e → memGet t.memC1 j = some e)
    (hC0 : ∀ j e, u.c0[j]? = some e → memGet t.memC0 j = some e) :
    (∀ v x, u.w[v]? = some x → t.elemW v = x) ∧ (∀ v x, u.s[v]? = some x → t.elemS v = x) ∧
    (∀ b j e, (u.cache b)[j]? = some e → t.elemC b j = e) := by
  refine ⟨fun v x h => by rw [State.elemW, hW v x h, Option.getD_some], fun v x h => by rw [State.elemS, hS v x h, Option.getD_some], ?_⟩
  intro b j e h
  cases b with
  | true => rw [State.elemC, if_pos rfl, hC1 j e h, Option.getD_some]
  | false => rw [State.elemC, if_neg (by decide), hC0 j e h, Option.getD_some]

/-- The built image alone in the memories. -/
theorem heldBy_install (u : Built) (s : State) : u.HeldBy (u.install s) := by
  have hmem {k : Nat} (vs : List (BitVec k)) (j : Nat) (x : BitVec k) (h : vs[j]? = some x) : memGet (memOf 0 vs) j = some x := by
    have hget := memGet_memOf vs 0 j x h
    rwa [Nat.zero_add] at hget
  obtain ⟨hW, hS, hC⟩ := elems_of_memGet u (u.install s) (hmem u.w) (hmem u.s) (hmem u.c1) (hmem u.c0)
  exact ⟨rfl, rfl, rfl, rfl, rfl, rfl, hW, hS, hC⟩

/-- The built image stored over what the memories held. -/
theorem heldBy_loaded (u : Built) (s : State) (rest : List Transaction) : u.HeldBy ((u.loaded s).withPending rest) := by
  have hmem {k : Nat} (m : Mem k) (vs : List (BitVec k)) (j : Nat) (x : BitVec k) (h : vs[j]? = some x) : memGet (memSetAll m 0 vs) j = some x := by
    have hget := memGet_memSetAll vs m 0 j x h
    rwa [Nat.zero_add] at hget
  obtain ⟨hW, hS, hC⟩ := elems_of_memGet u ((u.loaded s).withPending rest) (hmem _ u.w) (hmem _ u.s) (hmem _ u.c1) (hmem _ u.c0)
  exact ⟨rfl, rfl, rfl, rfl, rfl, rfl, hW, hS, hC⟩

/-! ### The built registers and caches -/

section
variable (c : Config) (B : List Bool)

/-- The totals (R35). -/
theorem buildImage_counts : (buildImage c B).oneCount = B.count true ∧ (buildImage c B).zeroCount = B.count false := by
  have hlength := length_le_wordsFor B.length
  rw [← rankOf_of_length_le B true _ hlength, ← rankOf_of_length_le B false _ hlength]
  exact ⟨passWords_oneCount c B _, passWords_zeroCount c B _ (Nat.le_refl _)⟩

theorem buildImage_l0Ones (hl0 : 1 ≤ c.l0sb) : (buildImage c B).l0Ones = l0Count c B := by
  have hones : (buildImage c B).l0Ones = _ := passWords_l0Ones c B (wordsFor B.length) hl0 (Nat.le_refl _)
  have hwords := length_le_wordsFor B.length
  rw [hones, l0Count]
  by_cases hlength : c.l0sb * 4096 ≤ B.length
  · rw [if_pos (hlength.trans hwords)]
  · rw [if_neg hlength, ite_self]

/-- The last position of a value in a built image. -/
def Built.lastPos (u : Built) (b : Bool) : Nat := if b then u.lastOnePos else u.lastZeroPos

/-- The last position of each value, 0 where there is none (R233). -/
theorem buildImage_lastPos (b : Bool) :
    (0 < B.count b → IsLast B b ((buildImage c B).lastPos b)) ∧ (B.count b = 0 → (buildImage c B).lastPos b = 0) := by
  have hlength := length_le_wordsFor B.length
  have hlast := passWords_lastPos c B (wordsFor B.length) b (Nat.le_refl _)
  have hbuilt : (passWords c B (wordsFor B.length)).lastPos b = (buildImage c B).lastPos b := by cases b <;> rfl
  rw [LastBefore, hbuilt, rankOf_of_length_le B b _ hlength] at hlast
  obtain ⟨hpos, hzero⟩ := hlast
  refine ⟨fun h => ?_, hzero⟩
  obtain ⟨hbit, -, hafter⟩ := hpos h
  refine ⟨hbit, fun q hq hq' => ?_⟩
  have hlt := (List.getElem?_eq_some_iff.mp hq').1
  exact hafter q hq (by omega) hq'

theorem buildImage_lastPos_le (b : Bool) : (buildImage c B).lastPos b ≤ B.length := by
  obtain ⟨hlast, hzero⟩ := buildImage_lastPos c B b
  obtain h0 | hpos := Nat.eq_zero_or_pos (B.count b)
  · rw [hzero h0]
    exact Nat.zero_le _
  · obtain ⟨hbit, -⟩ := hlast hpos
    exact (List.getElem?_eq_some_iff.mp hbit).1.le

/-- Each cache has an entry per multiple of `D`, and it is the superblock of that occurrence (10_state.md R37). -/
theorem buildImage_cache (hd : 64 ≤ c.d) (hlength : B.length ≤ 2 ^ 44) (b : Bool) :
    ((buildImage c B).cache b).length = B.count b / c.d ∧ CacheOf c.d B b ((buildImage c B).cache b) := by
  obtain ⟨h1, h0⟩ := length_buildImage_caches c B hd
  have hcache := passWords_cache c B (wordsFor B.length) b hd hlength (Nat.le_refl _)
  cases b with
  | true => exact ⟨h1, hcache⟩
  | false => exact ⟨h0, hcache⟩

end

/-! ### The image -/

section
variable {B : List Bool} {t : State} (h : (buildImage t.cfg B).HeldBy t) (hconfig : configOk t.cfg = true) (hnonempty : 1 ≤ B.length)
  (hfits : B.length ≤ min t.cfg.capN (nMax t.cfg))
include h hconfig hfits

/-- The registers, as numbers: none of them is too large for one. -/
theorem Built.HeldBy.toNat_registers :
    t.regN.toNat = B.length ∧ t.l0Ones.toNat = l0Count t.cfg B ∧ (∀ b, (t.total b).toNat = B.count b) ∧
    ∀ b, (t.lastPos b).toNat = (buildImage t.cfg B).lastPos b := by
  have hcap := capN_le t.cfg hconfig
  obtain ⟨-, hl0, -⟩ := configOk_bounds t.cfg hconfig
  have hsmall (x : Nat) (hx : x ≤ B.length) : (BitVec.ofNat 64 x).toNat = x := by
    rw [BitVec.toNat_ofNat, Nat.mod_eq_of_lt (by omega)]
  obtain ⟨hone, hzero⟩ := buildImage_counts t.cfg B
  refine ⟨?_, ?_, fun b => ?_, fun b => ?_⟩
  · rw [h.regN]
    exact hsmall _ (Nat.le_refl _)
  · have hle : l0Count t.cfg B ≤ B.length := by
      unfold l0Count
      split
      · exact (ones_le_length_take B _ _).trans (by omega)
      · exact Nat.zero_le _
    rw [h.l0Ones, buildImage_l0Ones t.cfg B hl0]
    exact hsmall _ hle
  · cases b with
    | true =>
      rw [State.total, if_pos rfl, h.oneCount, hone]
      exact hsmall _ List.count_le_length
    | false =>
      rw [State.total, if_neg (by decide), h.zeroCount, hzero]
      exact hsmall _ List.count_le_length
  · have hle := buildImage_lastPos_le t.cfg B b
    cases b with
    | true =>
      rw [State.lastPos, if_pos rfl, h.lastOnePos]
      exact hsmall _ hle
    | false =>
      rw [State.lastPos, if_neg (by decide), h.lastZeroPos]
      exact hsmall _ hle

/-- The entries the block holds are those of the image. -/
theorem Built.HeldBy.entryOf (sb : Nat) (hsb : sb < entriesFor B.length) : EntryOf t.cfg B sb (t.elemS (2 * sb)) (t.elemS (2 * sb + 1)) := by
  have hlength := length_buildImage_s t.cfg B
  have hread (v : Nat) (hv : v < 2 * entriesFor B.length) : (buildImage t.cfg B).s[v]? = some (t.elemS v) := by
    have hget := List.getElem?_eq_getElem (hv.trans_eq hlength.symm)
    rw [hget, h.entries v _ hget]
  exact buildImage_entries t.cfg B hconfig (by omega) sb _ _ (hread _ (by omega)) (hread _ (by omega))

/-- The caches the block holds are those of the image. -/
theorem Built.HeldBy.cacheOf (b : Bool) (j : Nat) (hj : j < t.cacheLen b) :
    ∃ p, bitPos B b ((j + 1) * t.cfg.d) = some p ∧ (t.elemC b j).toNat = p / 4096 := by
  have hcap := capN_le t.cfg hconfig
  obtain ⟨-, -, htotal, -⟩ := h.toNat_registers hconfig hfits
  obtain ⟨hd, -, -⟩ := configOk_bounds t.cfg hconfig
  obtain ⟨hlength, hcache⟩ := buildImage_cache t.cfg B hd (by omega) b
  rw [State.cacheLen, htotal b, ← hlength] at hj
  have hget := List.getElem?_eq_getElem hj
  rw [h.caches b j _ hget]
  exact hcache j _ hget

include hnonempty

/-- A block that holds what the pass has built of `B` holds the image of `B` (R233). -/
theorem Built.HeldBy.isImage : IsImage B t := by
  obtain ⟨hN, hL0, htotal, hlast⟩ := h.toNat_registers hconfig hfits
  have hones : ones B 0 B.length = B.count true := by rw [ones_zero, List.take_length]
  have hsum := List.count_false_add_count_true B
  have hentry := h.entryOf hconfig hfits
  refine { config := hconfig, nonempty := hnonempty, fits := hfits, regN := hN, words := ?words, fieldsR := ?fieldsR,
           fieldsB := ?fieldsB, l0Ones := hL0, oneCount := (htotal true).trans hones.symm, zeroCount := ?zeroCount,
           lastOne := ?lastOne, lastZero := ?lastZero, caches := h.cacheOf hconfig hfits }
  case words =>
    intro v hv j hj
    rw [h.words v (packWord B v) (by simp [buildImage, hv]), getLsbD_packWord B v j hj]
  case fieldsR =>
    intro sb hsb
    obtain ⟨hcount, -⟩ := hentry sb hsb
    rw [State.l0Term, apply_ite BitVec.toNat, hL0]
    exact hcount
  case fieldsB =>
    intro sb hsb j hj
    obtain ⟨-, hfields⟩ := hentry sb hsb
    exact hfields j hj
  case zeroCount =>
    have hzero : t.zeroCount.toNat = B.count false := htotal false
    omega
  case lastOne =>
    intro hpos
    have hisLast := (buildImage_lastPos t.cfg B true).1 (hpos.trans_eq (htotal true))
    rwa [← hlast true] at hisLast
  case lastZero =>
    intro hpos
    have hisLast := (buildImage_lastPos t.cfg B false).1 (hpos.trans_eq (htotal false))
    rwa [← hlast false] at hisLast

omit hnonempty

/-- The last position of a value that does not occur is 0 (R233). -/
theorem Built.HeldBy.lastPos_of_total_zero (b : Bool) (hzero : t.total b = 0#64) : t.lastPos b = 0#64 := by
  obtain ⟨-, -, htotal, hlast⟩ := h.toNat_registers hconfig hfits
  have hcount := htotal b
  rw [hzero, BitVec.toNat_zero] at hcount
  apply BitVec.eq_of_toNat_eq
  rw [hlast b, (buildImage_lastPos t.cfg B b).2 hcount.symm, BitVec.toNat_zero]

end

/-- Settles O47: the state with the built image alone in its memories holds it, and what holds it is an image. -/
theorem buildPassProducesTheImage : Obligations.BuildPassProducesTheImage := by
  unfold Obligations.BuildPassProducesTheImage
  intro s B hconfig hnonempty hfits
  have hheld : (buildImage s.cfg B).HeldBy ((buildImage s.cfg B).install s) := heldBy_install _ s
  have hlast := Built.HeldBy.lastPos_of_total_zero (t := (buildImage s.cfg B).install s) hheld hconfig hfits
  exact ⟨hheld.isImage hconfig hnonempty hfits, hlast true, hlast false, length_buildImage_w s.cfg B, length_buildImage_s s.cfg B⟩

/-- Settles O48: the transactions are all accepted and store the built image over the old one. -/
theorem loaderSequenceMakesTheBlockReady : Obligations.LoaderSequenceMakesTheBlockReady := by
  unfold Obligations.LoaderSequenceMakesTheBlockReady
  intro s B seq rest hconfig hseq hp
  obtain ⟨⟨hnonempty, hfits⟩, -⟩ := (loaderSequence_eq_some_iff s.cfg B seq).mp hseq
  have hheld : (buildImage s.cfg B).HeldBy (((buildImage s.cfg B).loaded s).withPending rest) := heldBy_loaded _ s rest
  exact ⟨_, run_loaderSequence s B seq rest hconfig hseq hp, rfl, hheld.isImage hconfig hnonempty hfits, rfl, rfl⟩

end Sys2Proof.Machine
end
